-- ==== Sys2Proof/Word.lean ====
section
/-! DEFINITION. The word types of LCDSER (00_scope.md R8): bytes, nibbles and the two kinds of panel address.
Integers of the host are Lean's `Int` (D2): signed, of no fixed width. -/

namespace Sys2Proof

/-- An unsigned number 0 to 255 (R8). -/
abbrev Byte := BitVec 8

/-- Half a byte: what one strobe latches (R11). -/
abbrev Nibble := BitVec 4

/-- A 7-bit DDRAM address (R40). -/
abbrev DdramAddr := BitVec 7

/-- A 6-bit CGRAM address (R40). -/
abbrev CgramAddr := BitVec 6

end Sys2Proof
end

