-- ==== Sys2Proof/Config.lean ====
section
/-! DEFINITION. The parameters of the block (00_scope.md R7), the panel's register types (10_state.md R29), and the free
values: opaque constants with no body, so that nothing can be proved about the value of one. -/

namespace Sys2Proof

/-- Whether the panel's address moves up after a data write, for each entry mode it can be told: "hardware
auto-increments per entry mode" (20_memory.md R48 (c)), the direction for each value not in the source (N28, G10).
OPEN, so a claim holds for every table (DESIGN CHOICE, log 9). -/
structure PanelUp where
  rightToLeft       : Bool
  rightToLeftScroll : Bool
  leftToRight       : Bool
  leftToRightScroll : Bool
deriving DecidableEq, Repr, Inhabited

/-- The parameters of R7, under the spec's names. Carried in the state and written by no step (PRESUMED, log 3), so a
claim about every state is a claim about every value of every parameter. Durations are in nanoseconds. -/
structure Params where
  rsMask        : Byte
  rwMask        : Byte
  enMask        : Byte
  blMask        : Byte
  fEntryDir     : Byte
  fEntryShift   : Byte
  fDispOn       : Byte
  fDispCursor   : Byte
  fDispBlink    : Byte
  fShiftDisplay : Byte
  fShiftRight   : Byte
  fFunc8Bit     : Byte
  fFunc2Line    : Byte
  fFuncTall     : Byte
  tEnHigh       : Nat
  tSettle       : Nat
  tLong         : Nat
  initPreamble  : List Byte
  /-- OPEN (C5, D8). -/
  initDisplayOn : Bool
  lineBreak     : Byte
  space         : Byte
  panelUp       : PanelUp
deriving DecidableEq, Repr

/-- The panel's interface width mode (10_state.md R29). -/
inductive BusWidth where
  | eight
  | four
deriving DecidableEq, Repr, Inhabited

/-- Which nibble the panel expects next (10_state.md R29): `low` carries the latched high nibble and its register
select (20_memory.md R49). -/
inductive NibblePhase where
  | high
  | low (hi : Nibble) (rs : Bool)
deriving DecidableEq, Repr, Inhabited

/-- The entry mode the panel was last told (20_memory.md R48 (c)). -/
structure EntryMode where
  leftToRight : Bool
  autoscroll  : Bool
deriving DecidableEq, Repr, Inhabited

/-- The panel's address counter: the cursor position (10_state.md R29), in one of its two memories (20_memory.md R40). -/
inductive PanelAddr where
  | ddram (a : DdramAddr)
  | cgram (a : CgramAddr)
deriving DecidableEq, Repr

/-- The answer of the `n`-th sink write where the state lists none: true means Fail. "A free choice of the environment
at every write, under no law" (D25; DESIGN CHOICE, log 5). -/
opaque Config.sinkFails : Nat → Bool

/-- `INIT_DISPLAY_ON` of this block: OPEN (C5, D8; DEDUCED, log 4). -/
opaque Config.initDisplayOn : Bool

/-- The panel's auto-increment directions: OPEN (N28; DESIGN CHOICE, log 9). -/
opaque Config.panelUp : PanelUp

/-- The backpack's outputs after a write that answered Fail: "nothing is known of the outputs" (R41, U4; DEDUCED, log 7). -/
opaque Config.failedOutputs : Nat → Byte

/-- The outputs of a newly supplied sink before its first write: "unspecified" (R30, R196; DEDUCED, log 7). -/
opaque Config.newSinkOutputs : Nat → Byte

/-- The panel's interface width where nothing is known of it (U1, U5; DEDUCED, log 8). -/
opaque Config.freeWidth : Nat → BusWidth

/-- Whether the panel is in 2-line mode where nothing is known of it (U1, U5; DEDUCED, log 8). -/
opaque Config.freeTwoLine : Nat → Bool

/-- Whether the panel uses the tall font where nothing is known of it (U1, U5; DEDUCED, log 8). -/
opaque Config.freeTallFont : Nat → Bool

/-- The panel's nibble phase where nothing is known of it (U1, U5; DEDUCED, log 8). -/
opaque Config.freePhase : Nat → NibblePhase

/-- The panel's entry mode where nothing is known of it (U1, U5; DEDUCED, log 8). -/
opaque Config.freeEntry : Nat → EntryMode

/-- Whether an unknown panel address is one of DDRAM (U1, U5, N20; DEDUCED, log 8). -/
opaque Config.freeInDdram : Nat → Bool

/-- An unknown DDRAM address (U1, U5, N20; DEDUCED, log 8). -/
opaque Config.freeDdramAddr : Nat → DdramAddr

/-- An unknown CGRAM address (U1, U5, N20; DEDUCED, log 8). -/
opaque Config.freeCgramAddr : Nat → CgramAddr

/-- A panel address of which nothing is known. -/
def Config.freeAddress (n : Nat) : PanelAddr :=
  if Config.freeInDdram n then .ddram (Config.freeDdramAddr n) else .cgram (Config.freeCgramAddr n)

end Sys2Proof
end

