-- ==== Sys2Proof/Syntax.lean ====
section
/-! DEFINITION. The operations of LCDSER, one constructor per row of spec/opcode_table.json, and the request records they
are read from (30_encoding.md R60, R70). -/

namespace Sys2Proof

/-- One constructor per row of the opcode table. Operand order is that of the document's calls (R73): column before row in
`setCursorPosition`, the text first in the text operations. -/
inductive Instr where
  /-- INIT, host op 0x00 (R211). -/
  | init (rows columns : Int)
  /-- CLOSE, host op 0x01 (R215). -/
  | close
  /-- SET_BACKLIGHT, host op 0x10 (R121). -/
  | setBacklight (on : Bool)
  /-- SET_DISPLAY, host op 0x11 (R122). -/
  | setDisplay (on : Bool)
  /-- SET_CURSOR_VISIBLE, host op 0x12 (R123). -/
  | setCursorVisible (on : Bool)
  /-- SET_CURSOR_BLINKING, host op 0x13 (R124). -/
  | setCursorBlinking (on : Bool)
  /-- SET_ENTRY_MODE, host op 0x14 (R125). -/
  | setEntryMode (leftToRight autoscroll : Bool)
  /-- CLEAR, host op 0x20 (R126). -/
  | clear
  /-- HOME, host op 0x21 (R127). -/
  | home
  /-- SHIFT_DISPLAY, host op 0x22 (R128). -/
  | shiftDisplay (right : Bool)
  /-- SHIFT_CURSOR, host op 0x23 (R129). -/
  | shiftCursor (right : Bool)
  /-- SET_CURSOR_POSITION, host op 0x30 (R140). -/
  | setCursorPosition (column row : Int)
  /-- WRITE_CHARACTER, host op 0x31 (R142). -/
  | writeCharacter (code : Byte)
  /-- CREATE_CUSTOM_CHARACTER, host op 0x32 (R143). -/
  | createCustomCharacter (location : Int) (bitmap : List Byte)
  /-- DISPLAY_TEXT_ROW, host op 0x40 (R150). -/
  | displayTextRow (text : List Byte) (row : Int)
  /-- DISPLAY_TEXT_AT, host op 0x41 (R151). -/
  | displayTextAt (text : List Byte) (row column : Int)
  /-- LAYOUT_TEXT, host op 0x42 (R167). -/
  | layoutText (text : List Byte)
  /-- CLEAR_DISPLAY, `clearDisplay()` (R100). -/
  | clearDisplay
  /-- RETURN_HOME, `returnHome()` (R101). -/
  | returnHome
  /-- ENTRY_MODE_SET, `entryMode(leftToRight, autoscroll)` (R102). -/
  | entryModeSet (leftToRight autoscroll : Bool)
  /-- DISPLAY_CONTROL, `displayControl(on, cursor, blink)` (R103). -/
  | displayControl (on cursor blink : Bool)
  /-- CURSOR_DISPLAY_SHIFT, `cursorOrDisplayShift(moveDisplay, moveRight)` (R104). -/
  | cursorDisplayShift (moveDisplay moveRight : Bool)
  /-- FUNCTION_SET, `functionSet(eightBitBus, twoLine, tallFont)` (R105). -/
  | functionSet (eightBitBus twoLine tallFont : Bool)
  /-- SET_CGRAM_ADDR, `cgramAddress(location)` (R106). -/
  | setCgramAddr (location : Int)
  /-- SET_DDRAM_ADDR, `ddramAddress(offset)` (R107). -/
  | setDdramAddr (offset : Int)
  /-- SEND, the micro-operation of the NibbleTransport (R90). -/
  | send (value : Byte) (rs bl : Bool)
  /-- BLWRITE, the backlight-only write (R91). -/
  | blwrite (bl : Bool)
deriving DecidableEq, Repr

/-- The host request record `{op, a, b, data}` of R70. A Boolean stands in `a` or `b` as 0 or 1, the byte of
WRITE_CHARACTER as 0 to 255 (DESIGN CHOICE, log 15). -/
structure HostRecord where
  op   : Byte
  a    : Int
  b    : Int
  data : List Byte
deriving DecidableEq, Repr

/-- A call of an inner component on its own, which no host request can make (R72): an encoder call named by the byte it
returns, or a transport call named by the bus bytes it writes (DESIGN CHOICE, log 14). -/
inductive InnerCall where
  | encoder (command : Byte)
  | transport (bytes : List Byte)
deriving DecidableEq, Repr

/-- What a step can be asked for, in the three formats of R60: an operation of the host request port, or a call of an inner
component on its own. -/
inductive Request where
  | host (r : HostRecord)
  | inner (c : InnerCall)
deriving DecidableEq, Repr

end Sys2Proof
end

