-- ==== Sys2Proof/WellFormed.lean ====
section
/-! DEFINITION. Which instructions and which parameter values are well formed. A host operation with an argument out of
range is well formed: the block answers it with an error kind (60_exceptions.md R180). The two address encoders are partial
(41_command_encoder.md R106, R107; U2), so their operands are checked here. -/

namespace Sys2Proof

/-- The domain of `cgramAddress` (R65, R106). -/
def cgramLocationOk (location : Int) : Bool := decide (0 ≤ location) && decide (location ≤ 7)

/-- The domain of `ddramAddress` (R65, R107). -/
def ddramOffsetOk (offset : Int) : Bool := decide (0 ≤ offset) && decide (offset ≤ 0x7F)

/-- Well-formedness of an instruction: it has an encoding. -/
def Instr.wf : Instr → Bool
  | .init _ _ => true
  | .close => true
  | .setBacklight _ => true
  | .setDisplay _ => true
  | .setCursorVisible _ => true
  | .setCursorBlinking _ => true
  | .setEntryMode _ _ => true
  | .clear => true
  | .home => true
  | .shiftDisplay _ => true
  | .shiftCursor _ => true
  | .setCursorPosition _ _ => true
  | .writeCharacter _ => true
  | .createCustomCharacter _ _ => true
  | .displayTextRow _ _ => true
  | .displayTextAt _ _ _ => true
  | .layoutText _ => true
  | .clearDisplay => true
  | .returnHome => true
  | .entryModeSet _ _ => true
  | .displayControl _ _ _ => true
  | .cursorDisplayShift _ _ => true
  | .functionSet _ _ _ => true
  | .setCgramAddr location => cgramLocationOk location
  | .setDdramAddr offset => ddramOffsetOk offset
  | .send _ _ _ => true
  | .blwrite _ => true

/-- Exactly one bit of the byte is set. -/
def oneBit (b : Byte) : Bool := b != 0 && (b &&& (b - 1)) == 0

/-- A control mask: one bit, inside 0x0F (R7). -/
def controlMaskOk (m : Byte) : Bool := oneBit m && (m &&& 0xF0) == 0

/-- A flag bit of a command family: one bit, strictly below the family's base (R62, R64). -/
def flagOk (base f : Byte) : Bool := oneBit f && decide (f < base)

/-- The constraints on the four masks (R7): each one bit inside 0x0F, all different. -/
def Params.masksOk (p : Params) : Bool :=
  controlMaskOk p.rsMask && controlMaskOk p.rwMask && controlMaskOk p.enMask && controlMaskOk p.blMask
    && p.rsMask != p.rwMask && p.rsMask != p.enMask && p.rsMask != p.blMask
    && p.rwMask != p.enMask && p.rwMask != p.blMask && p.enMask != p.blMask

/-- The constraint on the flag bits (R64): "each is one bit, the flags of one family are different bits, and each lies
below its family's base". -/
def Params.flagsOk (p : Params) : Bool :=
  flagOk 0x04 p.fEntryDir && flagOk 0x04 p.fEntryShift && p.fEntryDir != p.fEntryShift
    && flagOk 0x08 p.fDispOn && flagOk 0x08 p.fDispCursor && flagOk 0x08 p.fDispBlink
    && p.fDispOn != p.fDispCursor && p.fDispOn != p.fDispBlink && p.fDispCursor != p.fDispBlink
    && flagOk 0x10 p.fShiftDisplay && flagOk 0x10 p.fShiftRight && p.fShiftDisplay != p.fShiftRight
    && flagOk 0x20 p.fFunc8Bit && flagOk 0x20 p.fFunc2Line && flagOk 0x20 p.fFuncTall
    && p.fFunc8Bit != p.fFunc2Line && p.fFunc8Bit != p.fFuncTall && p.fFunc2Line != p.fFuncTall

/-- The hard lower bounds of R7 and R230: enable high at least 0.5 microseconds, settle at least 0.1 microseconds. -/
def Params.timesOk (p : Params) : Bool := decide (500 ≤ p.tEnHigh) && decide (100 ≤ p.tSettle)

/-- Well-formedness of the parameters (R7, R64). -/
def Params.wf (p : Params) : Bool := p.masksOk && p.flagsOk && p.timesOk

end Sys2Proof
end

