-- ==== Sys2Proof/Decode.lean ====
section
/-! DEFINITION. The parameter defaults (00_scope.md R7), the CommandEncoder functions (41_command_encoder.md), nibble
assembly (30_encoding.md R66), the decoder of the three formats, and the encoder. -/

namespace Sys2Proof

/-! ## Parameter defaults -/

/-- The default values of R7, R64, R211 and R230, with the two OPEN parameters left as arguments. The mask and flag
positions and the preamble are the spec's from general knowledge (G1, G2, G3; PRESUMED, log 3). -/
def Params.ofOpen (initDisplayOn : Bool) (panelUp : PanelUp) : Params where
  rsMask        := 0x01
  rwMask        := 0x02
  enMask        := 0x04
  blMask        := 0x08
  fEntryDir     := 0x02
  fEntryShift   := 0x01
  fDispOn       := 0x04
  fDispCursor   := 0x02
  fDispBlink    := 0x01
  fShiftDisplay := 0x08
  fShiftRight   := 0x04
  fFunc8Bit     := 0x10
  fFunc2Line    := 0x08
  fFuncTall     := 0x04
  tEnHigh       := 500
  tSettle       := 100000
  tLong         := 3000000
  initPreamble  := [0x33, 0x32]
  initDisplayOn := initDisplayOn
  lineBreak     := 0x0A
  space         := 0x20
  panelUp       := panelUp

/-- The parameters this hardware takes (R7): the defaults, and free values for the two OPEN parameters. -/
def Params.default : Params := Params.ofOpen Config.initDisplayOn Config.panelUp

/-! ## The CommandEncoder (R100 to R107) -/

/-- `flag ? bit : 0` of the encoders' pseudocode. -/
def flagBit (flag : Bool) (bit : Byte) : Byte := if flag then bit else 0

/-- `clearDisplay()` (R100). -/
def clearDisplayByte : Byte := 0x01

/-- `returnHome()` (R101). -/
def returnHomeByte : Byte := 0x02

/-- `entryMode(leftToRight, autoscroll)` (R102). -/
def entryModeByte (p : Params) (leftToRight autoscroll : Bool) : Byte :=
  0x04 ||| flagBit leftToRight p.fEntryDir ||| flagBit autoscroll p.fEntryShift

/-- `displayControl(on, cursor, blink)` (R103). -/
def displayControlByte (p : Params) (on cursor blink : Bool) : Byte :=
  0x08 ||| flagBit on p.fDispOn ||| flagBit cursor p.fDispCursor ||| flagBit blink p.fDispBlink

/-- `cursorOrDisplayShift(moveDisplay, moveRight)` (R104). -/
def shiftByte (p : Params) (moveDisplay moveRight : Bool) : Byte :=
  0x10 ||| flagBit moveDisplay p.fShiftDisplay ||| flagBit moveRight p.fShiftRight

/-- `functionSet(eightBitBus, twoLine, tallFont)` (R105). -/
def functionSetByte (p : Params) (eightBitBus twoLine tallFont : Bool) : Byte :=
  0x20 ||| flagBit eightBitBus p.fFunc8Bit ||| flagBit twoLine p.fFunc2Line ||| flagBit tallFont p.fFuncTall

/-- `cgramAddress(location)` (R106); none outside 0 to 7, where the document defines no result (U2). -/
def cgramAddressByte (location : Int) : Option Byte :=
  if cgramLocationOk location then some (0x40#8 ||| (BitVec.ofNat 8 location.toNat <<< 3)) else none

/-- `ddramAddress(offset)` (R107); none outside 0 to 0x7F, where the document defines no result (U2). -/
def ddramAddressByte (offset : Int) : Option Byte :=
  if ddramOffsetOk offset then some (0x80#8 ||| BitVec.ofNat 8 offset.toNat) else none

/-! ## Nibble assembly and bus bytes (R61, R66) -/

/-- `n1`: the high nibble in bits 7:4, with the register select (R66). -/
def highNibbleByte (p : Params) (value : Byte) (rs : Bool) : Byte := flagBit rs p.rsMask ||| (value &&& 0xF0#8)

/-- `n2`: the low nibble in bits 7:4, with the register select (R66). -/
def lowNibbleByte (p : Params) (value : Byte) (rs : Bool) : Byte :=
  flagBit rs p.rsMask ||| ((value <<< 4) &&& 0xF0#8)

/-- The three bus bytes of one nibble (R66): data with EN low, EN high, EN low. -/
def strobeBytes (p : Params) (n : Byte) (bl : Bool) : List Byte :=
  let idle := n ||| flagBit bl p.blMask
  [idle, idle ||| p.enMask, idle]

/-- The six bus bytes of `SEND(value, rs, bl)`, high nibble first (R66, R90). -/
def sendBytes (p : Params) (value : Byte) (rs bl : Bool) : List Byte :=
  strobeBytes p (highNibbleByte p value rs) bl ++ strobeBytes p (lowNibbleByte p value rs) bl

/-- The bus byte of `BLWRITE(bl)` (R91). -/
def blwriteByte (p : Params) (bl : Bool) : Byte := flagBit bl p.blMask

/-! ## The decoder -/

/-- Why a request names no operation. -/
inductive DecodeError where
  /-- An op code that is not in the table of R70 (R72). -/
  | unknownOp (op : Byte)
  /-- A Boolean operand that is neither 0 nor 1 (DESIGN CHOICE, log 15). -/
  | notBoolean (v : Int)
  /-- A byte operand outside 0 to 255 (DESIGN CHOICE, log 15). -/
  | notByte (v : Int)
  /-- A command byte no encoder returns (R67). -/
  | noSuchCommand (b : Byte)
  /-- Bus bytes that are neither a SEND nor a BLWRITE (R67). -/
  | noSuchTraffic
deriving DecidableEq, Repr

/-- A Boolean operand of a request record. -/
def asBool (v : Int) : Except DecodeError Bool :=
  if v = 0 then .ok false else if v = 1 then .ok true else .error (.notBoolean v)

/-- A byte operand of a request record. -/
def asByte (v : Int) : Except DecodeError Byte :=
  if 0 ≤ v ∧ v ≤ 255 then .ok (BitVec.ofNat 8 v.toNat) else .error (.notByte v)

/-- An operation of one Boolean operand, read from the field `a`. -/
def withFlag (v : Int) (f : Bool → Instr) : Except DecodeError Instr :=
  match asBool v with
  | .ok on => .ok (f on)
  | .error e => .error e

/-- The host request port (R70): the op code selects the operation; fields it does not use are ignored. -/
def decodeHost (r : HostRecord) : Except DecodeError Instr :=
  match r.op.toNat with
  | 0x00 => .ok (.init r.a r.b)
  | 0x01 => .ok .close
  | 0x10 => withFlag r.a .setBacklight
  | 0x11 => withFlag r.a .setDisplay
  | 0x12 => withFlag r.a .setCursorVisible
  | 0x13 => withFlag r.a .setCursorBlinking
  | 0x14 =>
    match asBool r.a with
    | .error e => .error e
    | .ok leftToRight => withFlag r.b (.setEntryMode leftToRight)
  | 0x20 => .ok .clear
  | 0x21 => .ok .home
  | 0x22 => withFlag r.a .shiftDisplay
  | 0x23 => withFlag r.a .shiftCursor
  | 0x30 => .ok (.setCursorPosition r.a r.b)
  | 0x31 =>
    match asByte r.a with
    | .error e => .error e
    | .ok code => .ok (.writeCharacter code)
  | 0x32 => .ok (.createCustomCharacter r.a r.data)
  | 0x40 => .ok (.displayTextRow r.data r.a)
  | 0x41 => .ok (.displayTextAt r.data r.a r.b)
  | 0x42 => .ok (.layoutText r.data)
  | _ => .error (.unknownOp r.op)

/-- A bit of a byte is set. -/
def hasBit (b mask : Byte) : Bool := (b &&& mask) != 0

/-- The family of a command byte, by its leading one (R62), with the operands its fields carry (R63); not yet checked for
bits the encoder always writes 0. -/
def commandOf (p : Params) (b : Byte) : Option Instr :=
  if hasBit b 0x80 then some (.setDdramAddr (b &&& 0x7F#8).toNat)
  else if hasBit b 0x40 then some (.setCgramAddr ((b >>> 3) &&& 0x07#8).toNat)
  else if hasBit b 0x20 then some (.functionSet (hasBit b p.fFunc8Bit) (hasBit b p.fFunc2Line) (hasBit b p.fFuncTall))
  else if hasBit b 0x10 then some (.cursorDisplayShift (hasBit b p.fShiftDisplay) (hasBit b p.fShiftRight))
  else if hasBit b 0x08 then some (.displayControl (hasBit b p.fDispOn) (hasBit b p.fDispCursor) (hasBit b p.fDispBlink))
  else if hasBit b 0x04 then some (.entryModeSet (hasBit b p.fEntryDir) (hasBit b p.fEntryShift))
  else if hasBit b 0x02 then some .returnHome
  else if hasBit b 0x01 then some .clearDisplay
  else none

/-- The byte the CommandEncoder returns for a command instruction; none for the instructions that are not encoder calls
and for operands outside an encoder's domain. -/
def commandByte (p : Params) : Instr → Option Byte
  | .clearDisplay => some clearDisplayByte
  | .returnHome => some returnHomeByte
  | .entryModeSet leftToRight autoscroll => some (entryModeByte p leftToRight autoscroll)
  | .displayControl on cursor blink => some (displayControlByte p on cursor blink)
  | .cursorDisplayShift moveDisplay moveRight => some (shiftByte p moveDisplay moveRight)
  | .functionSet eightBitBus twoLine tallFont => some (functionSetByte p eightBitBus twoLine tallFont)
  | .setCgramAddr location => cgramAddressByte location
  | .setDdramAddr offset => ddramAddressByte offset
  | .init _ _ => none
  | .close => none
  | .setBacklight _ => none
  | .setDisplay _ => none
  | .setCursorVisible _ => none
  | .setCursorBlinking _ => none
  | .setEntryMode _ _ => none
  | .clear => none
  | .home => none
  | .shiftDisplay _ => none
  | .shiftCursor _ => none
  | .setCursorPosition _ _ => none
  | .writeCharacter _ => none
  | .createCustomCharacter _ _ => none
  | .displayTextRow _ _ => none
  | .displayTextAt _ _ _ => none
  | .layoutText _ => none
  | .send _ _ _ => none
  | .blwrite _ => none

/-- The encoder call that returns this command byte. A byte with a bit set that its encoder always writes 0 is returned by
none (R67). -/
def decodeCommand (p : Params) (b : Byte) : Except DecodeError Instr :=
  match commandOf p b with
  | none => .error (.noSuchCommand b)
  | some i => if commandByte p i = some b then .ok i else .error (.noSuchCommand b)

/-- The transport call that writes these bus bytes (R61): one byte is a BLWRITE (R91), six are a SEND (R90), whose value
has its high nibble in bits 7:4 of the first byte and its low nibble in bits 7:4 of the fourth. -/
def decodeTransport (p : Params) (bytes : List Byte) : Except DecodeError Instr :=
  match bytes with
  | [b] =>
    if b = blwriteByte p (hasBit b p.blMask) then .ok (.blwrite (hasBit b p.blMask)) else .error .noSuchTraffic
  | [b1, _, _, b4, _, _] =>
    let value := (b1 &&& 0xF0#8) ||| (b4 >>> 4)
    let rs := hasBit b1 p.rsMask
    let bl := hasBit b1 p.blMask
    if sendBytes p value rs bl = bytes then .ok (.send value rs bl) else .error .noSuchTraffic
  | _ => .error .noSuchTraffic

/-- The two formats of the inner components (R60, R61, R63). -/
def decodeInner (p : Params) : InnerCall → Except DecodeError Instr
  | .encoder command => decodeCommand p command
  | .transport bytes => decodeTransport p bytes

/-- The decoder: total on every request, rejecting by name. -/
def decode (p : Params) : Request → Except DecodeError Instr
  | .host r => decodeHost r
  | .inner c => decodeInner p c

/-! ## The encoder -/

/-- A Boolean operand as a request record carries it (DESIGN CHOICE, log 15). -/
def boolArg (b : Bool) : Int := if b then 1 else 0

/-- The request for a host operation: unused fields 0 and empty (R70). -/
def hostRequest (op : Byte) (a b : Int) (data : List Byte) : Request := .host { op := op, a := a, b := b, data := data }

/-- The request that asks for an instruction (R70 for the host operations, R63 for the command bytes, R66 and R91 for the
bus bytes); none for an operand outside an encoder's domain. -/
def encode (p : Params) : Instr → Option Request
  | .init rows columns => some (hostRequest 0x00 rows columns [])
  | .close => some (hostRequest 0x01 0 0 [])
  | .setBacklight on => some (hostRequest 0x10 (boolArg on) 0 [])
  | .setDisplay on => some (hostRequest 0x11 (boolArg on) 0 [])
  | .setCursorVisible on => some (hostRequest 0x12 (boolArg on) 0 [])
  | .setCursorBlinking on => some (hostRequest 0x13 (boolArg on) 0 [])
  | .setEntryMode leftToRight autoscroll => some (hostRequest 0x14 (boolArg leftToRight) (boolArg autoscroll) [])
  | .clear => some (hostRequest 0x20 0 0 [])
  | .home => some (hostRequest 0x21 0 0 [])
  | .shiftDisplay right => some (hostRequest 0x22 (boolArg right) 0 [])
  | .shiftCursor right => some (hostRequest 0x23 (boolArg right) 0 [])
  | .setCursorPosition column row => some (hostRequest 0x30 column row [])
  | .writeCharacter code => some (hostRequest 0x31 code.toNat 0 [])
  | .createCustomCharacter location bitmap => some (hostRequest 0x32 location 0 bitmap)
  | .displayTextRow text row => some (hostRequest 0x40 row 0 text)
  | .displayTextAt text row column => some (hostRequest 0x41 row column text)
  | .layoutText text => some (hostRequest 0x42 0 0 text)
  | .clearDisplay => some (.inner (.encoder 0x01))
  | .returnHome => some (.inner (.encoder 0x02))
  | .entryModeSet leftToRight autoscroll =>
    some (.inner (.encoder (0x04 + flagBit leftToRight p.fEntryDir + flagBit autoscroll p.fEntryShift)))
  | .displayControl on cursor blink =>
    some (.inner (.encoder (0x08 + flagBit on p.fDispOn + flagBit cursor p.fDispCursor + flagBit blink p.fDispBlink)))
  | .cursorDisplayShift moveDisplay moveRight =>
    some (.inner (.encoder (0x10 + flagBit moveDisplay p.fShiftDisplay + flagBit moveRight p.fShiftRight)))
  | .functionSet eightBitBus twoLine tallFont =>
    some (.inner (.encoder (0x20 + flagBit eightBitBus p.fFunc8Bit + flagBit twoLine p.fFunc2Line + flagBit tallFont p.fFuncTall)))
  | .setCgramAddr location =>
    if cgramLocationOk location then some (.inner (.encoder (BitVec.ofInt 8 (0x40 + 8 * location)))) else none
  | .setDdramAddr offset =>
    if ddramOffsetOk offset then some (.inner (.encoder (BitVec.ofInt 8 (0x80 + offset)))) else none
  | .send value rs bl => some (.inner (.transport (sendBytes p value rs bl)))
  | .blwrite bl => some (.inner (.transport [blwriteByte p bl]))

/-! ## The words of the opcode table -/

/-- Whether a decoder accepts. -/
def accepts (r : Except DecodeError Instr) : Bool :=
  match r with
  | .ok _ => true
  | .error _ => false

/-- The bus bytes of a SEND of which the table gives the first byte, `ddddbe0r` with EN low: the same nibble three times
with EN pulsed, then the low nibble, which has no bits in the word and is 0 (DESIGN CHOICE, log 16). -/
def sendWordBytes (p : Params) (b : Byte) : List Byte :=
  sendBytes p (b &&& 0xF0#8) (hasBit b p.rsMask) (hasBit b p.blMask)

/-- The request an 8-bit word of the opcode table stands for. The table's three formats use the same 8 bits without a bit
that tells them apart, so a word is read in the order HOSTOP, LCDCMD, BUSBYTE (BLWRITE before SEND): the first
format that gives it a meaning (DESIGN CHOICE, log 16). Operands without bits in the word are 0 or empty. -/
def tableRequest (w : Nat) : Option Request :=
  let p := Params.default
  let b := BitVec.ofNat 8 w
  if 256 ≤ w then none
  else if accepts (decodeHost { op := b, a := 0, b := 0, data := [] }) then
    some (.host { op := b, a := 0, b := 0, data := [] })
  else if accepts (decodeCommand p b) then some (.inner (.encoder b))
  else if accepts (decodeTransport p [b]) then some (.inner (.transport [b]))
  else if (sendWordBytes p b).head? = some b then some (.inner (.transport (sendWordBytes p b)))
  else none

/-- The instruction the decoder reads from a word of the opcode table. Every row of the table has 8 bits. -/
def decodeTableWord (nbits w : Nat) : Option Instr :=
  if nbits = 8 then
    match tableRequest w with
    | none => none
    | some r =>
      match decode Params.default r with
      | .ok i => some i
      | .error _ => none
  else none

end Sys2Proof
end

