-- ==== Sys2Proof/Machine/State.lean ====
section
/-! DEFINITION. The state of the machine as plain data (10_state.md R20 to R32), the reasons a step can stop, and the state
after reset. -/

namespace Sys2Proof.Machine

/-- The DisplayState register DS (R21): six independent flags, every combination legal. -/
structure DisplayState where
  backlightOn      : Bool
  displayOn        : Bool
  cursorVisible    : Bool
  cursorBlinking   : Bool
  entryLeftToRight : Bool
  autoscrollOn     : Bool
deriving DecidableEq, Repr

/-- The session status (R23). -/
inductive Session where
  | unbuilt
  | opened
  | closed
deriving DecidableEq, Repr

/-- The result of an operation (30_encoding.md R71): Ok or one of the six error kinds (60_exceptions.md R180). -/
inductive HostResult where
  | ok
  | lineOutOfRange
  | columnOutOfRange
  | textTooLong
  | invalidCustomCharLocation
  | invalidCustomCharLength
  | transportError
deriving DecidableEq, Repr

/-- One event of the trace (00_scope.md R10): a sink write with its answer (true is Ok), a wait, the release of the sink. -/
inductive Event where
  | write (b : Byte) (ok : Bool)
  | wait (ns : Nat)
  | release
deriving DecidableEq, Repr

/-- What the sink does with a write asked of it: answers Ok, answers Fail (20_memory.md R41), or never answers (R231). -/
inductive SinkAnswer where
  | ok
  | fail
  | silent
deriving DecidableEq, Repr

/-- A memory of the panel: (address, byte) pairs, addresses strictly rising. An unlisted address holds a byte of which
nothing is known (DESIGN CHOICE, log 10). -/
abbrev Memory := List Host.Cell

/-- The panel's state that the block relies on and cannot read (10_state.md R29). -/
structure Panel where
  /-- Interface width mode (R29). -/
  width    : BusWidth
  /-- 2-line mode (R29, R30 "4-bit/2-line/5×8-font mode"). -/
  twoLine  : Bool
  /-- Tall font in place of 5×8 (R29, R30). -/
  tallFont : Bool
  /-- Nibble phase (R29). -/
  phase    : NibblePhase
  /-- The entry mode it was last told (20_memory.md R48 (c)). -/
  entry    : EntryMode
  /-- Cursor position (R29). -/
  address  : PanelAddr
  /-- DDRAM contents (R29). -/
  ddram    : Memory
  /-- CGRAM contents (R29). -/
  cgram    : Memory
deriving DecidableEq, Repr

/-- The whole state. The block's own part is `session`, `rows`, `columns`, `ds` and `xfault` (R20); the rest is the
parameters, what an observer sees, the backpack and panel (R29), the inputs, and the counter of the free values. -/
structure State where
  /-- The parameters (R7); no step writes them (PRESUMED, log 3). -/
  cfg         : Params
  /-- SESSION (R23). -/
  session     : Session
  /-- Geometry (R22). -/
  rows        : Nat
  /-- Geometry (R22). -/
  columns     : Nat
  /-- DS (R21). -/
  ds          : DisplayState
  /-- XFAULT (R24). -/
  xfault      : Bool
  /-- The last result returned to the host (R71); none before the first. -/
  result      : Option HostResult
  /-- The last byte an encoder call of its own returned (DESIGN CHOICE, log 14); none before the first. -/
  encoded     : Option Byte
  /-- The trace (R10), oldest event first. -/
  trace       : List Event
  /-- The backpack's eight outputs (R29, R41). -/
  outputs     : Byte
  /-- The panel (R29). -/
  panel       : Panel
  /-- The host's program: the requests it will issue, one at a time, each after the answer to the one before (DESIGN
  CHOICE, log 17). Only operations of R70 stand in it (R72). -/
  requests    : List HostRecord
  /-- A call of an inner component put to it from outside the block, so that its row of the opcode table can run on its own;
  no part of the host's program, and no step puts one here (DESIGN CHOICE, log 14). -/
  innerCall   : Option InnerCall
  /-- The sink's coming answers; past their end each answer is a free value (DESIGN CHOICE, log 5). -/
  sinkAnswers : List SinkAnswer
  /-- The counter that makes each free value fresh (DESIGN CHOICE, log 20). -/
  ticks       : Nat
deriving DecidableEq, Repr

/-- Why the machine stops for ever. -/
inductive Fault where
  /-- Raised by every operation that writes to the sink when the sink never answers one of its writes: "a sink that never
  answers hangs the block for ever" (R231, U12: stuck). Safe: the hardware has no next state either. -/
  | sinkNeverAnswers
deriving DecidableEq, Repr

/-- Why the machine has no step for a request. -/
inductive Refusal where
  /-- Raised by `exec` for an instruction without a meaning. Safe. -/
  | notModelled (mnemonic : String)
  /-- Raised by `step` for a request that names no operation (R72, D28; DESIGN CHOICE, log 15). Safe: a request the host
  cannot make. -/
  | undecodable (e : DecodeError)
  /-- Raised by every operation but INIT, and CLOSE on a closed session, when SESSION is not Open (R196, D15). Safe. -/
  | sessionNotOpen
  /-- Raised by INIT for a geometry outside the domain of R211 (D16). Safe. -/
  | badGeometry
  /-- Raised where an address encoder is called outside its domain, for which no result is defined (R106, R107, U2). The
  host operations reach it in no state whose geometry is legal. Safe. -/
  | encoderDomain
deriving DecidableEq, Repr

/-- The panel as R212 gives it when INIT returns Ok: 4-bit interface, 2-line, 5×8 font, cleared, cursor at row 0 column
0 (DDRAM address 0x00, R45), high nibble next, told left-to-right without autoscroll by INIT's own command, which
the CLEAR after it is taken to keep (R211; DESIGN CHOICE, log 28). What the cleared DDRAM and the CGRAM hold is not stated
(R30, N28; DESIGN CHOICE, log 10). -/
def Panel.initialised : Panel where
  width    := .four
  twoLine  := true
  tallFont := false
  phase    := .high
  entry    := { leftToRight := true, autoscroll := false }
  address  := .ddram 0
  ddram    := []
  cgram    := []

/-- A panel of which nothing is known (U1, U5; DEDUCED, log 8). -/
def Panel.unknown (n : Nat) : Panel where
  width    := Config.freeWidth n
  twoLine  := Config.freeTwoLine n
  tallFont := Config.freeTallFont n
  phase    := Config.freePhase n
  entry    := Config.freeEntry n
  address  := Config.freeAddress n
  ddram    := []
  cgram    := []

/-- "Initial state on construction: backlight off, display/cursor/blink off, entry mode left-to-right with autoscroll off"
(R30, second column of values). -/
def DisplayState.initial : DisplayState where
  backlightOn      := false
  displayOn        := false
  cursorVisible    := false
  cursorBlinking   := false
  entryLeftToRight := true
  autoscrollOn     := false

/-- Reset is the operation INIT (R210): the state in which it has returned Ok (R30 last column, R212; DEDUCED, log 1),
with the geometry of log 2 (DESIGN CHOICE). The trace starts here. -/
def State.reset : State where
  cfg         := Params.default
  session     := .opened
  rows        := 2
  columns     := 16
  ds          := { DisplayState.initial with backlightOn := true, displayOn := Params.default.initDisplayOn }
  xfault      := false
  result      := some .ok
  encoded     := none
  trace       := []
  outputs     := Params.default.blMask
  panel       := Panel.initialised
  requests    := []
  innerCall   := none
  sinkAnswers := []
  ticks       := 0

/-- The state "before any INIT" (R30 first column, start of programs P1 to P3): SESSION is Unbuilt; the values R30 leaves
unspecified are those of log 21 (DESIGN CHOICE). -/
def State.unbuilt : State where
  cfg         := Params.default
  session     := .unbuilt
  rows        := 0
  columns     := 0
  ds          := DisplayState.initial
  xfault      := false
  result      := none
  encoded     := none
  trace       := []
  outputs     := Config.newSinkOutputs 0
  panel       := Panel.unknown 0
  requests    := []
  innerCall   := none
  sinkAnswers := []
  ticks       := 1

end Sys2Proof.Machine
end

