-- ==== Sys2Proof/Machine/Memory.lean ====
section
/-! DEFINITION. The panel's two memories (20_memory.md R40): reading and writing one byte, and the canonical form. -/

namespace Sys2Proof.Machine

/-- The canonical form: addresses strictly rising, each below `size`. -/
def Memory.wf (size : Nat) (m : Memory) : Bool :=
  (m.map Prod.fst).Pairwise (· < ·) && m.all (fun c => c.1 < size)

/-- One byte; none where nothing is known of it (DESIGN CHOICE, log 10). -/
def Memory.read : Memory → Nat → Option Byte
  | [], _ => none
  | (b, v) :: rest, a => if a = b then some v else Memory.read rest a

/-- Store one byte, keeping the addresses strictly rising. -/
def Memory.write : Memory → Nat → Byte → Memory
  | [], a, v => [(a, v)]
  | (b, w) :: rest, a, v =>
    if a < b then (a, v) :: (b, w) :: rest
    else if a = b then (a, v) :: rest
    else (b, w) :: Memory.write rest a v

/-- Size of the DDRAM address space: 7-bit addresses (R40). -/
def ddramSize : Nat := 128

/-- Size of the CGRAM address space: 6-bit addresses (R40). -/
def cgramSize : Nat := 64

/-- Both memories of the panel are in canonical form. -/
def Panel.memoryWf (p : Panel) : Bool := Memory.wf ddramSize p.ddram && Memory.wf cgramSize p.cgram

end Sys2Proof.Machine
end

