-- ==== Sys2Proof/Machine/Panel.lean ====
section
/-! DEFINITION. How the panel reacts to the bytes on the backpack's outputs: 20_memory.md R48 and the receiver of R49, and
nothing else. Whatever R48 does not say is a free value or an unlisted byte (log 8 to log 13). -/

namespace Sys2Proof.Machine

/-- The enable line is high in this bus byte. -/
def enHigh (p : Params) (b : Byte) : Bool := hasBit b p.enMask

/-- A change of the outputs is a strobe: "a timed high-then-low transition" of the enable line (R48 (a), R49). -/
def isStrobe (p : Params) (old new : Byte) : Bool := enHigh p old && !enHigh p new

/-- The data nibble of a bus byte (R61). -/
def dataNibble (b : Byte) : Nibble := b.extractLsb' 4 4

/-- Two nibbles to a byte, high first (R42, R48 (b)). -/
def joinNibbles (hi lo : Nibble) : Byte := hi ++ lo

/-- Whether the address goes up in an entry mode (DESIGN CHOICE, log 9). -/
def goesUp (t : PanelUp) (e : EntryMode) : Bool :=
  if e.leftToRight then (if e.autoscroll then t.leftToRightScroll else t.leftToRight)
  else (if e.autoscroll then t.rightToLeftScroll else t.rightToLeft)

/-- A free address of the memory that is selected: only an address command, CLEAR and HOME select a memory. After a CGRAM
address command a data byte "goes to CGRAM, not DDRAM" (43_addressing_data_ops.md R142, 70_reset_and_hazards.md R226); that
DDRAM stays selected likewise is read from R40 (DEDUCED, log 9). -/
def strayAddr (n : Nat) : PanelAddr → PanelAddr
  | .ddram _ => .ddram (Config.freeDdramAddr n)
  | .cgram _ => .cgram (Config.freeCgramAddr n)

/-- The address after a data byte: it "moves by one" (43_addressing_data_ops.md R142), up or down as the entry mode says.
Past either end of its memory it is a free address of that memory (N20; DESIGN CHOICE, log 9). -/
def moveAddr (up : Bool) (n : Nat) : PanelAddr → PanelAddr
  | .ddram a =>
    if up then (if a = 0x7F then strayAddr n (.ddram a) else .ddram (a + 1))
    else (if a = 0 then strayAddr n (.ddram a) else .ddram (a - 1))
  | .cgram a =>
    if up then (if a = 0x3F then strayAddr n (.cgram a) else .cgram (a + 1))
    else (if a = 0 then strayAddr n (.cgram a) else .cgram (a - 1))

/-- Store a byte in the memory the address counter points into. -/
def Panel.store (p : Panel) (v : Byte) : Panel :=
  match p.address with
  | .ddram a => { p with ddram := Memory.write p.ddram a.toNat v }
  | .cgram a => { p with cgram := Memory.write p.cgram a.toNat v }

/-- A data byte "is stored at the current address and hardware auto-increments per entry mode" (R48 (c)). What autoscroll does
on a data write R48 and N28 leave open: that it does no more than take part in the choice of direction, every other byte of
both memories and the one-step move as without it, is the model's choice (DESIGN CHOICE, log 29). -/
def Panel.receiveData (cfg : Params) (n : Nat) (p : Panel) (v : Byte) : Panel :=
  { p.store v with address := moveAddr (goesUp cfg.panelUp p.entry) n p.address }

/-- After a command of which R48 does not say what it does to the cursor and the display memory: the address is a free one
of the memory selected and DDRAM is unknown, the glyphs are kept ("persists in hardware CGRAM until overwritten or the
device is reset/powered off", R46; DEDUCED, log 13). The entry mode, so the direction of auto-increment, stays as last told:
the model's choice, R48 and N28 are silent (DESIGN CHOICE, log 28). -/
def Panel.disturbed (n : Nat) (p : Panel) : Panel := { p with address := strayAddr n p.address, ddram := [] }

/-- Set the cursor to the home position, row 0 column 0 (R48 (d); for HOME, DEDUCED, log 11); DDRAM contents not stated
(N28). The entry mode, so the direction of auto-increment, stays as last told: the model's choice, R48, R126 and R127 are
silent (DESIGN CHOICE, log 28). -/
def Panel.homed (p : Panel) : Panel := { p with address := .ddram 0, ddram := [] }

/-- The effect of a command on the panel (R48 (d), (e)). The address commands leave the entry mode too (DESIGN CHOICE,
log 28). -/
def Panel.receiveCommand (n : Nat) (p : Panel) : Instr → Panel
  | .clearDisplay => p.homed
  | .returnHome => p.homed
  | .entryModeSet leftToRight autoscroll =>
    { p.disturbed n with entry := { leftToRight := leftToRight, autoscroll := autoscroll } }
  | .displayControl _ _ _ => p.disturbed n
  | .cursorDisplayShift _ _ => p.disturbed n
  | .functionSet eightBitBus twoLine tallFont =>
    { p.disturbed n with
      width := if eightBitBus then .eight else .four
      twoLine := twoLine
      tallFont := tallFont }
  | .setCgramAddr location => { p with address := .cgram (BitVec.ofNat 6 (8 * location.toNat)) }
  | .setDdramAddr offset => { p with address := .ddram (BitVec.ofNat 7 offset.toNat) }
  | .init _ _ => Panel.unknown n
  | .close => Panel.unknown n
  | .setBacklight _ => Panel.unknown n
  | .setDisplay _ => Panel.unknown n
  | .setCursorVisible _ => Panel.unknown n
  | .setCursorBlinking _ => Panel.unknown n
  | .setEntryMode _ _ => Panel.unknown n
  | .clear => Panel.unknown n
  | .home => Panel.unknown n
  | .shiftDisplay _ => Panel.unknown n
  | .shiftCursor _ => Panel.unknown n
  | .setCursorPosition _ _ => Panel.unknown n
  | .writeCharacter _ => Panel.unknown n
  | .createCustomCharacter _ _ => Panel.unknown n
  | .displayTextRow _ _ => Panel.unknown n
  | .displayTextAt _ _ _ => Panel.unknown n
  | .layoutText _ => Panel.unknown n
  | .send _ _ _ => Panel.unknown n
  | .blwrite _ => Panel.unknown n

/-- After a command byte that no encoder returns: what the panel makes of it is not stated (R63, R67), so its mode and address
are unknown. The whole byte has been received, so "no partial nibble is left pending" (40_transport.md R92 (d), R44), and the
glyphs are kept (R46; DEDUCED, log 8). -/
def Panel.baffled (n : Nat) (p : Panel) : Panel := { Panel.unknown n with phase := .high, cgram := p.cgram }

/-- A whole byte received (R48 (b)): data when rs is 1, a command when rs is 0. -/
def Panel.receiveByte (cfg : Params) (n : Nat) (p : Panel) (rs : Bool) (v : Byte) : Panel :=
  if rs then p.receiveData cfg n v
  else
    match decodeCommand cfg v with
    | .ok i => p.receiveCommand n i
    | .error _ => p.baffled n

/-- One strobe. In 4-bit mode strobes pair up into bytes, the first of a pair giving bits 7:4 and the register select
(R49). What a strobe does in 8-bit mode is not stated (G4): then nothing is known of the panel (DEDUCED, log 8). -/
def Panel.strobe (cfg : Params) (n : Nat) (p : Panel) (nibble : Nibble) (rs : Bool) : Panel :=
  match p.width, p.phase with
  | .eight, _ => Panel.unknown n
  | .four, .high => { p with phase := .low nibble rs }
  | .four, .low hi rs0 => Panel.receiveByte cfg n { p with phase := .high } rs0 (joinNibbles hi nibble)

/-- The outputs change from `old` to `new`: on a strobe the panel latches the data and register select of the byte that
had EN high (R49, D24). -/
def Panel.outputsChange (cfg : Params) (n : Nat) (p : Panel) (old new : Byte) : Panel :=
  if isStrobe cfg old new then p.strobe cfg n (dataNibble old) (hasBit old cfg.rsMask) else p

/-! ## The reference receiver (R49): a tool for proofs, not part of the block -/

/-- The bytes of the writes that answered Ok, in order. -/
def okBytes : List Event → List Byte
  | [] => []
  | .write b true :: rest => b :: okBytes rest
  | .write _ false :: rest => okBytes rest
  | .wait _ :: rest => okBytes rest
  | .release :: rest => okBytes rest

/-- What each strobe of a byte sequence latches. -/
def strobesOf (cfg : Params) : List Byte → List (Bool × Nibble)
  | [] => []
  | a :: rest =>
    match rest with
    | [] => []
    | b :: _ =>
      if isStrobe cfg a b then (hasBit a cfg.rsMask, dataNibble a) :: strobesOf cfg rest else strobesOf cfg rest

/-- Pair strobes into (rs, byte), high nibble first; an unpaired last strobe gives no byte. -/
def pairUp : List (Bool × Nibble) → List (Bool × Byte)
  | (rs, hi) :: (_, lo) :: rest => (rs, joinNibbles hi lo) :: pairUp rest
  | [_] => []
  | [] => []

/-- `Receive(trace)` (R49). -/
def receive (cfg : Params) (trace : List Event) : List (Bool × Byte) := pairUp (strobesOf cfg (okBytes trace))

end Sys2Proof.Machine
end

