-- ==== Sys2Proof/Machine/Ops.lean ====
section
/-! DEFINITION. The named operations over the sink, the trace and the result (00_scope.md R9): SinkWrite, Wait, Release,
raise, return, and running an operation's event list, cut short at the first failed write (10_state.md R27, D22). -/

namespace Sys2Proof.Machine

/-! ## Requests -/

/-- What the next step is asked for, and the state with it taken out: a call put to an inner component from outside (DESIGN
CHOICE, log 14), else the first request of the host's program (20_memory.md R50); none where neither is outstanding. -/
def State.takeRequest (s : State) : Option (Request × State) :=
  match s.innerCall with
  | some c => some (.inner c, { s with innerCall := none })
  | none =>
    match s.requests with
    | [] => none
    | r :: rest => some (.host r, { s with requests := rest })

/-- Put a request where the next step takes it: a host operation in front of the host's program, an inner call in its own
place (DESIGN CHOICE, log 19). -/
def State.place (s : State) : Request → State
  | .host r => { s with requests := r :: s.requests, innerCall := none }
  | .inner c => { s with innerCall := some c }

/-! ## Small updates -/

/-- Append one event to the trace (R10). -/
def State.emit (s : State) (e : Event) : State := { s with trace := s.trace ++ [e] }

/-- Replace DS. -/
def State.withDs (s : State) (ds : DisplayState) : State := { s with ds := ds }

/-- Give the host a result (R71). -/
def State.answer (s : State) (r : HostResult) : State := { s with result := some r }

/-- Give the caller of an encoder its byte (DESIGN CHOICE, log 14). -/
def State.encoderReturns (s : State) (b : Byte) : State := { s with encoded := some b }

/-! ## Errors (60_exceptions.md R187): the one place where an operation's end is given to the host -/

/-- `raise E`: the operation ends, nothing is saved, no mode changes, the host receives E in place of Ok (R187). The state
is that of the events before the raise: for a validation error, the state before the operation (R188). -/
def State.raiseError (s : State) (e : HostResult) : State := s.answer e

/-- `return Ok`: the operation is complete (R9). There is no return from an error and nothing to restore (R192). -/
def State.returnOk (s : State) : State := s.answer .ok

/-! ## The sink (20_memory.md R41) -/

/-- Whether the next write answers Ok: as the sink's listed answers say, past their end a free choice (D25; DESIGN
CHOICE, log 5). A write that is never answered does not answer Ok; the operation that makes one is stuck
(`stallsWithin`). -/
def State.nextWriteOk (s : State) : Bool :=
  match s.sinkAnswers with
  | .ok :: _ => true
  | .fail :: _ => false
  | .silent :: _ => false
  | [] => !Config.sinkFails s.ticks

/-- A write that answered Ok: W(b) in the trace, the outputs take the value b, and the panel sees the change (R41, R49). -/
def State.writeOk (s : State) (b : Byte) : State :=
  { s with
    trace := s.trace ++ [.write b true]
    panel := s.panel.outputsChange s.cfg s.ticks s.outputs b
    outputs := b
    sinkAnswers := s.sinkAnswers.tail
    ticks := s.ticks + 1 }

/-- A write that answered Fail: W(b) in the trace, XFAULT set, "nothing is known of the outputs" (R41, U4) nor of the panel
until the next INIT returns Ok (U5). -/
def State.writeFailed (s : State) (b : Byte) : State :=
  { s with
    trace := s.trace ++ [.write b false]
    xfault := true
    panel := Panel.unknown s.ticks
    outputs := Config.failedOutputs s.ticks
    sinkAnswers := s.sinkAnswers.tail
    ticks := s.ticks + 1 }

/-- Whether the sink, asked for this many writes and stopped at the first Fail, comes to one it never answers (R231). -/
def stallsWithin : Nat → List SinkAnswer → Bool
  | 0, _ => false
  | _ + 1, [] => false
  | n + 1, .ok :: rest => stallsWithin n rest
  | _ + 1, .fail :: _ => false
  | _ + 1, .silent :: _ => true

/-! ## Event lists -/

/-- One step of an operation's event list: a sink write or a wait. -/
inductive Act where
  | write (b : Byte)
  | wait (ns : Nat)
deriving DecidableEq, Repr

/-- How many sink writes an event list holds. -/
def countWrites : List Act → Nat
  | [] => 0
  | .write _ :: rest => countWrites rest + 1
  | .wait _ :: rest => countWrites rest

/-- The state after (part of) an operation's traffic, and whether every write so far answered Ok. -/
structure Traffic where
  ok    : Bool
  state : State
deriving DecidableEq, Repr

/-- Run an event list: each event in order, none after the first failed write (R93, R187, D12). -/
def perform : List Act → State → Traffic
  | [], s => { ok := true, state := s }
  | .wait ns :: rest, s => perform rest (s.emit (.wait ns))
  | .write b :: rest, s =>
    if s.nextWriteOk then perform rest (s.writeOk b) else { ok := false, state := s.writeFailed b }

/-- Go on with an operation where its traffic so far was answered Ok; where it failed, the rest does not happen. -/
def Traffic.andThen (t : Traffic) (next : State → Traffic) : Traffic := if t.ok then next t.state else t

/-- The end of an operation that transmitted: Ok, or the TransportError of the write that failed (R186). -/
def Traffic.report (t : Traffic) : State := if t.ok then t.state.returnOk else t.state.raiseError .transportError

/-- `Release()`: gives the sink back, appends REL, never fails (R9, R215). -/
def State.release (s : State) : State := s.emit .release

/-! ## The shape of an operation -/

/-- An operation that makes at most `writes` sink writes ends in `t`, unless the sink never answers one of them: then the
operation never returns (R231, U12). -/
def unlessStalled (s : State) (writes : Nat) (t : State) : Host.Outcome State Fault Refusal :=
  if stallsWithin writes s.sinkAnswers then .fault .sinkNeverAnswers else .next t

/-- Only in an open session (R196). -/
def whenOpen (s : State) (o : Host.Outcome State Fault Refusal) : Host.Outcome State Fault Refusal :=
  match s.session with
  | .opened => o
  | .unbuilt => .refused .sessionNotOpen
  | .closed => .refused .sessionNotOpen

/-- Transmit an event list and report. -/
def transmit (s : State) (acts : List Act) : Host.Outcome State Fault Refusal :=
  unlessStalled s (countWrites acts) (perform acts s).report

/-- What an operation with arguments is going to do, decided before any event (R188): transmit, raise a validation error,
or call an address encoder outside its domain. -/
inductive Plan where
  | go (acts : List Act)
  | raise (e : HostResult)
  | outsideEncoder
deriving DecidableEq, Repr

/-- Carry out a plan. -/
def runPlan (s : State) : Plan → Host.Outcome State Fault Refusal
  | .go acts => transmit s acts
  | .raise e => .next (s.raiseError e)
  | .outsideEncoder => .refused .encoderDomain

end Sys2Proof.Machine
end

