-- ==== Sys2Proof/Machine/Flags.lean ====
section
/-! DEFINITION. The DS flags (10_state.md R21, R28): one update per setter, the 6-bit packing, and the two command bytes
recomputed from DS at every use (20_memory.md R53). There are no condition codes (R28). -/

namespace Sys2Proof.Machine

/-- `DS.backlightOn <- on`. -/
def State.setBacklightOn (s : State) (on : Bool) : State := s.withDs { s.ds with backlightOn := on }

/-- `DS.displayOn <- on`. -/
def State.setDisplayOn (s : State) (on : Bool) : State := s.withDs { s.ds with displayOn := on }

/-- `DS.cursorVisible <- on`. -/
def State.setCursorVisible (s : State) (on : Bool) : State := s.withDs { s.ds with cursorVisible := on }

/-- `DS.cursorBlinking <- on`. -/
def State.setCursorBlinking (s : State) (on : Bool) : State := s.withDs { s.ds with cursorBlinking := on }

/-- `DS.entryLeftToRight <- leftToRight; DS.autoscrollOn <- autoscroll`. -/
def State.setEntryFlags (s : State) (leftToRight autoscroll : Bool) : State :=
  s.withDs { s.ds with entryLeftToRight := leftToRight, autoscrollOn := autoscroll }

/-- DS as one 6-bit value, bit numbers of R21. -/
def DisplayState.pack (ds : DisplayState) : BitVec 6 :=
  BitVec.ofBool ds.autoscrollOn ++ BitVec.ofBool ds.entryLeftToRight ++ BitVec.ofBool ds.cursorBlinking
    ++ BitVec.ofBool ds.cursorVisible ++ BitVec.ofBool ds.displayOn ++ BitVec.ofBool ds.backlightOn

/-- DS from its 6-bit value (R21). -/
def DisplayState.unpack (v : BitVec 6) : DisplayState where
  backlightOn      := v.getLsbD 0
  displayOn        := v.getLsbD 1
  cursorVisible    := v.getLsbD 2
  cursorBlinking   := v.getLsbD 3
  entryLeftToRight := v.getLsbD 4
  autoscrollOn     := v.getLsbD 5

/-- `DC(DS)` (41_command_encoder.md R103). -/
def State.dc (s : State) : Byte := displayControlByte s.cfg s.ds.displayOn s.ds.cursorVisible s.ds.cursorBlinking

/-- `EM(DS)` (41_command_encoder.md R102). -/
def State.em (s : State) : Byte := entryModeByte s.cfg s.ds.entryLeftToRight s.ds.autoscrollOn

end Sys2Proof.Machine
end

