-- ==== Sys2Proof/Machine/Operands.lean ====
section
/-! DEFINITION. Operand checks and the DDRAM address mapper (43_addressing_data_ops.md R141), on mathematical integers
(41_command_encoder.md R108 (e)), and the event lists of SEND and BLWRITE (40_transport.md). -/

namespace Sys2Proof.Machine

/-! ## Geometry and the mapper -/

/-- ROW_OFFSET (10_state.md R25). There is no row past 3: the value there is above every 7-bit address, so that no encoder
accepts it; no legal geometry reaches it (DESIGN CHOICE, log 22). -/
def rowOffset : Nat → Nat
  | 0 => 0x00
  | 1 => 0x40
  | 2 => 0x14
  | 3 => 0x54
  | _ + 4 => 0x80

/-- MAXCOL (70_reset_and_hazards.md R211). -/
def maxCol : Nat → Nat
  | 0 => 0
  | 1 => 127
  | 2 => 63
  | 3 => 63
  | 4 => 43
  | _ + 5 => 0

/-- The domain of INIT (R211, D16). -/
def geometryOk (rows columns : Int) : Bool :=
  decide (1 ≤ rows) && decide (rows ≤ 4) && decide (1 ≤ columns) && decide (columns ≤ (maxCol rows.toNat : Int))

/-- `0 <= row and row < rows` (R141). -/
def rowInRange (s : State) (row : Int) : Bool := decide (0 ≤ row) && decide (row < (s.rows : Int))

/-- `0 <= column and column <= columns` (R141): one past the last column is legal. -/
def columnInRange (s : State) (column : Int) : Bool := decide (0 ≤ column) && decide (column ≤ (s.columns : Int))

/-- `ROW_OFFSET[row] + column` (R141), for a row and column that passed their checks. -/
def cellAddress (row column : Int) : Int := (rowOffset row.toNat : Int) + column

/-- The mapper `DdramOf(column, row)` (R141): the row is checked first (R190). -/
def ddramOf (s : State) (column row : Int) : Except HostResult Int :=
  if !rowInRange s row then .error .lineOutOfRange
  else if !columnInRange s column then .error .columnOutOfRange
  else .ok (cellAddress row column)

/-! ## Transport event lists (R90, R91) -/

/-- The five events of one nibble: EN low, EN high, wait, EN low, wait (R90). -/
def nibbleActs (p : Params) (n : Byte) (bl : Bool) : List Act :=
  let idle := n ||| flagBit bl p.blMask
  [.write idle, .write (idle ||| p.enMask), .wait p.tEnHigh, .write idle, .wait p.tSettle]

/-- The ten events of `SEND(value, rs, bl)`, high nibble first (R90). -/
def sendActs (p : Params) (value : Byte) (rs bl : Bool) : List Act :=
  nibbleActs p (highNibbleByte p value rs) bl ++ nibbleActs p (lowNibbleByte p value rs) bl

/-- The one event of `BLWRITE(bl)` (R91). -/
def blwriteActs (p : Params) (bl : Bool) : List Act := [.write (blwriteByte p bl)]

/-- SEND a command with the current backlight bit (R53, R90). -/
def State.command (s : State) (value : Byte) : List Act := sendActs s.cfg value false s.ds.backlightOn

/-- SEND a data byte with the current backlight bit (R53, R90). -/
def State.data (s : State) (value : Byte) : List Act := sendActs s.cfg value true s.ds.backlightOn

/-- SEND data bytes, element 0 first (R42). -/
def State.dataAll (s : State) : List Byte → List Act
  | [] => []
  | b :: rest => s.data b ++ s.dataAll rest

/-- `CLEAR()`'s events: the command, then the long wait (42_controller_ops.md R126). -/
def State.clearActs (s : State) : List Act := s.command clearDisplayByte ++ [.wait s.cfg.tLong]

/-- Plan to SEND an address command, then go on; an address no encoder accepts has no plan (U2). -/
def addressThen (s : State) (command : Option Byte) (rest : List Act) : Plan :=
  match command with
  | some b => .go (s.command b ++ rest)
  | none => .outsideEncoder

end Sys2Proof.Machine
end

