-- ==== Sys2Proof/Machine/Controller.lean ====
section
/-! DEFINITION. The nine operations of 42_controller_ops.md. Each first writes the DS fields it owns, then transmits, then
returns Ok (R120); a setter transmits on every call (R130). -/

namespace Sys2Proof.Machine

/-- SEND one command with the DS as it stands and return (R120). -/
def sendCommand (s : State) (value : Byte) : Host.Outcome State Fault Refusal := transmit s (s.command value)

/-- SET_BACKLIGHT (R121): one write outside SEND. -/
def execSetBacklight (on : Bool) (s : State) : Host.Outcome State Fault Refusal :=
  whenOpen s (transmit (s.setBacklightOn on) (blwriteActs s.cfg on))

/-- SET_DISPLAY (R122). -/
def execSetDisplay (on : Bool) (s : State) : Host.Outcome State Fault Refusal :=
  whenOpen s (sendCommand (s.setDisplayOn on) (s.setDisplayOn on).dc)

/-- SET_CURSOR_VISIBLE (R123). -/
def execSetCursorVisible (on : Bool) (s : State) : Host.Outcome State Fault Refusal :=
  whenOpen s (sendCommand (s.setCursorVisible on) (s.setCursorVisible on).dc)

/-- SET_CURSOR_BLINKING (R124). -/
def execSetCursorBlinking (on : Bool) (s : State) : Host.Outcome State Fault Refusal :=
  whenOpen s (sendCommand (s.setCursorBlinking on) (s.setCursorBlinking on).dc)

/-- SET_ENTRY_MODE (R125). -/
def execSetEntryMode (leftToRight autoscroll : Bool) (s : State) : Host.Outcome State Fault Refusal :=
  whenOpen s (sendCommand (s.setEntryFlags leftToRight autoscroll) (s.setEntryFlags leftToRight autoscroll).em)

/-- CLEAR (R126): the command, then the long wait. -/
def execClear (s : State) : Host.Outcome State Fault Refusal := whenOpen s (transmit s s.clearActs)

/-- HOME (R127): the command, then the long wait. -/
def execHome (s : State) : Host.Outcome State Fault Refusal :=
  whenOpen s (transmit s (s.command returnHomeByte ++ [.wait s.cfg.tLong]))

/-- SHIFT_DISPLAY (R128). -/
def execShiftDisplay (right : Bool) (s : State) : Host.Outcome State Fault Refusal :=
  whenOpen s (sendCommand s (shiftByte s.cfg true right))

/-- SHIFT_CURSOR (R129). -/
def execShiftCursor (right : Bool) (s : State) : Host.Outcome State Fault Refusal :=
  whenOpen s (sendCommand s (shiftByte s.cfg false right))

end Sys2Proof.Machine
end

