-- ==== Sys2Proof/Machine/Encoder.lean ====
section
/-! DEFINITION. The CommandEncoder functions run on their own (41_command_encoder.md): each returns its byte, "None reads or
writes state, none touches the sink, none raises an error" (DESIGN CHOICE, log 14). -/

namespace Sys2Proof.Machine

/-- CLEAR_DISPLAY (R100). -/
def execClearDisplay (s : State) : Host.Outcome State Fault Refusal := .next (s.encoderReturns clearDisplayByte)

/-- RETURN_HOME (R101). -/
def execReturnHome (s : State) : Host.Outcome State Fault Refusal := .next (s.encoderReturns returnHomeByte)

/-- ENTRY_MODE_SET (R102). -/
def execEntryModeSet (leftToRight autoscroll : Bool) (s : State) : Host.Outcome State Fault Refusal :=
  .next (s.encoderReturns (entryModeByte s.cfg leftToRight autoscroll))

/-- DISPLAY_CONTROL (R103). -/
def execDisplayControl (on cursor blink : Bool) (s : State) : Host.Outcome State Fault Refusal :=
  .next (s.encoderReturns (displayControlByte s.cfg on cursor blink))

/-- CURSOR_DISPLAY_SHIFT (R104). -/
def execCursorDisplayShift (moveDisplay moveRight : Bool) (s : State) : Host.Outcome State Fault Refusal :=
  .next (s.encoderReturns (shiftByte s.cfg moveDisplay moveRight))

/-- FUNCTION_SET (R105). -/
def execFunctionSet (eightBitBus twoLine tallFont : Bool) (s : State) : Host.Outcome State Fault Refusal :=
  .next (s.encoderReturns (functionSetByte s.cfg eightBitBus twoLine tallFont))

/-- The end of a partial encoder: its byte, or no meaning outside its domain (U2). -/
def partialEncoder (s : State) (r : Option Byte) : Host.Outcome State Fault Refusal :=
  match r with
  | some b => .next (s.encoderReturns b)
  | none => .refused .encoderDomain

/-- SET_CGRAM_ADDR (R106). -/
def execSetCgramAddr (location : Int) (s : State) : Host.Outcome State Fault Refusal :=
  partialEncoder s (cgramAddressByte location)

/-- SET_DDRAM_ADDR (R107). -/
def execSetDdramAddr (offset : Int) (s : State) : Host.Outcome State Fault Refusal :=
  partialEncoder s (ddramAddressByte offset)

end Sys2Proof.Machine
end

