-- ==== Sys2Proof/Machine/Addressing.lean ====
section
/-! DEFINITION. The three operations of 43_addressing_data_ops.md. -/

namespace Sys2Proof.Machine

/-- SET_CURSOR_POSITION's plan (R140): the mapper's checks before any bus write, then the DDRAM-address command. -/
def planCursorPosition (s : State) (column row : Int) : Plan :=
  match ddramOf s column row with
  | .error e => .raise e
  | .ok addr => addressThen s (ddramAddressByte addr) []

/-- SET_CURSOR_POSITION (R140). -/
def execSetCursorPosition (column row : Int) (s : State) : Host.Outcome State Fault Refusal :=
  whenOpen s (runPlan s (planCursorPosition s column row))

/-- WRITE_CHARACTER (R142): the byte unchanged, as data. -/
def execWriteCharacter (code : Byte) (s : State) : Host.Outcome State Fault Refusal :=
  whenOpen s (transmit s (s.data code))

/-- CREATE_CUSTOM_CHARACTER's plan (R143): location, then length, before any bus write; then the CGRAM-address command and
the eight bytes as given (D21), with no DDRAM address after them (R226). -/
def planCustomCharacter (s : State) (location : Int) (bitmap : List Byte) : Plan :=
  if !cgramLocationOk location then .raise .invalidCustomCharLocation
  else if bitmap.length ≠ 8 then .raise .invalidCustomCharLength
  else addressThen s (cgramAddressByte location) (s.dataAll bitmap)

/-- CREATE_CUSTOM_CHARACTER (R143). -/
def execCreateCustomCharacter (location : Int) (bitmap : List Byte) (s : State) : Host.Outcome State Fault Refusal :=
  whenOpen s (runPlan s (planCustomCharacter s location bitmap))

end Sys2Proof.Machine
end

