-- ==== Sys2Proof/Machine/Text.lean ====
section
/-! DEFINITION. The per-row text operations of 44_text_ops.md. -/

namespace Sys2Proof.Machine

/-- `ClearRow(row)` after its address command (R152): `columns` spaces. -/
def State.blankRow (s : State) : List Act := s.dataAll (List.replicate s.columns s.cfg.space)

/-- DISPLAY_TEXT_AT's plan (R151): length, then row, then column, before any event (R190, C9); ClearRow; position the
cursor; each character in order. DS is not read but for the backlight bit (R229). -/
def planTextAt (s : State) (text : List Byte) (row column : Int) : Plan :=
  if (text.length : Int) > (s.columns : Int) - column then .raise .textTooLong
  else if !rowInRange s row then .raise .lineOutOfRange
  else if !columnInRange s column then .raise .columnOutOfRange
  else
    match ddramAddressByte (cellAddress row 0), ddramAddressByte (cellAddress row column) with
    | some rowStart, some position =>
      .go (s.command rowStart ++ s.blankRow ++ s.command position ++ s.dataAll text)
    | some _, none => .outsideEncoder
    | none, _ => .outsideEncoder

/-- DISPLAY_TEXT_AT (R151). -/
def execDisplayTextAt (text : List Byte) (row column : Int) (s : State) : Host.Outcome State Fault Refusal :=
  whenOpen s (runPlan s (planTextAt s text row column))

/-- DISPLAY_TEXT_ROW (R150): DISPLAY_TEXT_AT at column 0. -/
def execDisplayTextRow (text : List Byte) (row : Int) (s : State) : Host.Outcome State Fault Refusal :=
  whenOpen s (runPlan s (planTextAt s text row 0))

end Sys2Proof.Machine
end

