-- ==== Sys2Proof/Machine/Layout.lean ====
section
/-! DEFINITION. The TextLayoutEngine and LAYOUT_TEXT (45_text_layout.md). -/

namespace Sys2Proof.Machine

/-- `acc[row] <- acc[row] ++ [c]`. -/
def appendAt : List (List Byte) → Nat → Byte → List (List Byte)
  | [], _, _ => []
  | r :: rest, 0, c => (r ++ [c]) :: rest
  | r :: rest, row + 1, c => r :: appendAt rest row c

/-- The length of `acc[row]`. -/
def rowLength (acc : List (List Byte)) (row : Nat) : Nat := (acc.getD row []).length

/-- The loop of `Layout` (R160), one element of the text at a time. `trim` says that the row has just advanced, so that
this element is skipped if it is SPACE (R164). A line break moves to the next row, or ends the loop on the last one
(R162, R165). Any other element is stored while the row has room, and the row advances when it becomes full (R163); on
a full last row it is dropped (R165). -/
def layoutLoop (lineBreak space : Byte) (rows columns : Nat) :
    List Byte → Bool → Nat → List (List Byte) → List (List Byte)
  | [], _, _, acc => acc
  | c :: rest, trim, row, acc =>
    if trim && c == space then layoutLoop lineBreak space rows columns rest false row acc
    else if c == lineBreak then
      if row + 1 < rows then layoutLoop lineBreak space rows columns rest true (row + 1) acc else acc
    else if rowLength acc row < columns then
      if rowLength acc row + 1 = columns ∧ row + 1 < rows then
        layoutLoop lineBreak space rows columns rest true (row + 1) (appendAt acc row c)
      else layoutLoop lineBreak space rows columns rest false row (appendAt acc row c)
    else layoutLoop lineBreak space rows columns rest false row acc

/-- `Layout(text, rows, columns)` (R160): the conservative length check (R161, R168), then the loop from `rows` empty
lists. -/
def layout (p : Params) (text : List Byte) (rows columns : Nat) : Except HostResult (List (List Byte)) :=
  if text.length > rows * columns then .error .textTooLong
  else .ok (layoutLoop p.lineBreak p.space rows columns text false 0 (List.replicate rows []))

/-- One plan after another; the first that transmits nothing decides. -/
def Plan.append : Plan → Plan → Plan
  | .go a, .go b => .go (a ++ b)
  | .go _, .raise e => .raise e
  | .go _, .outsideEncoder => .outsideEncoder
  | .raise e, _ => .raise e
  | .outsideEncoder, _ => .outsideEncoder

/-- `DISPLAY_TEXT_ROW(acc[r], r)` for the rows from `r` on, in order, empty rows included (R167). -/
def planRows (s : State) : List (List Byte) → Nat → Plan
  | [], _ => .go []
  | line :: rest, r => (planTextAt s line (r : Int) 0).append (planRows s rest (r + 1))

/-- LAYOUT_TEXT's plan (R167): `Layout` before any bus write, then every row, no CLEAR first (D19). -/
def planLayoutText (s : State) (text : List Byte) : Plan :=
  match layout s.cfg text s.rows s.columns with
  | .error e => .raise e
  | .ok acc => planRows s acc 0

/-- LAYOUT_TEXT (R167). -/
def execLayoutText (text : List Byte) (s : State) : Host.Outcome State Fault Refusal :=
  whenOpen s (runPlan s (planLayoutText s text))

end Sys2Proof.Machine
end

