-- ==== Sys2Proof/Machine/System.lean ====
section
/-! DEFINITION. INIT and CLOSE (70_reset_and_hazards.md R211, R215, R217). -/

namespace Sys2Proof.Machine

/-- The sink INIT works on: a newly supplied one, of whose outputs and panel nothing is known, when the session was not
Open (R196, U1); the same one when it was (R210; DEDUCED, log 23). -/
def State.connect (s : State) : State :=
  match s.session with
  | .opened => s
  | .unbuilt =>
    { s with outputs := Config.newSinkOutputs s.ticks, panel := Panel.unknown s.ticks, ticks := s.ticks + 1 }
  | .closed =>
    { s with outputs := Config.newSinkOutputs s.ticks, panel := Panel.unknown s.ticks, ticks := s.ticks + 1 }

/-- The assignments at the start of INIT (R211). -/
def State.construct (s : State) (rows columns : Nat) : State :=
  { s.connect with
    session := .opened
    xfault := false
    rows := rows
    columns := columns
    ds := DisplayState.initial }

/-- `for v in INIT_PREAMBLE: SEND(v, false, DS.backlightOn)` (R211). -/
def State.commandAll (s : State) : List Byte → List Act
  | [] => []
  | v :: rest => s.command v ++ s.commandAll rest

/-- INIT up to the function set (R211): 4-bit, 2-line, 5x8 for every geometry (D30). -/
def initFunctionSet (s : State) : Traffic :=
  perform (s.commandAll s.cfg.initPreamble ++ s.command (functionSetByte s.cfg false true false)) s

/-- INIT from `DS.displayOn <- INIT_DISPLAY_ON` to the clear (R211). -/
def initDisplay (s : State) : Traffic :=
  let t := s.setDisplayOn s.cfg.initDisplayOn
  perform (t.command t.dc ++ t.command t.em ++ t.clearActs) t

/-- INIT's last step, `SET_BACKLIGHT(true)` (R211, R121). -/
def initBacklight (s : State) : Traffic :=
  let t := s.setBacklightOn true
  perform (blwriteActs t.cfg true) t

/-- What INIT leaves of the panel when all of it was answered Ok (R212). -/
def initPanel (s : State) : Traffic := { ok := true, state := { s with panel := Panel.initialised } }

/-- INIT's traffic from the constructed state; a failed write ends it with DS as assigned so far (R217). -/
def initTraffic (s : State) : Traffic :=
  (((initFunctionSet s).andThen initDisplay).andThen initBacklight).andThen initPanel

/-- The sink writes of a whole INIT: six a SEND, four SENDs beside the preamble's, one BLWRITE; 37 with the default
preamble (R211). -/
def initWrites (p : Params) : Nat := 6 * (p.initPreamble.length + 4) + 1

/-- INIT (R211): in any session (R196); a geometry outside its domain is refused (D16). -/
def execInit (rows columns : Int) (s : State) : Host.Outcome State Fault Refusal :=
  if geometryOk rows columns then
    unlessStalled s (initWrites s.cfg) (initTraffic (s.construct rows.toNat columns.toNat)).report
  else .refused .badGeometry

/-- `SESSION <- Closed`, after `Release()` (R215). -/
def State.closeSession (s : State) : State := { s.release with session := .closed }

/-- CLOSE on an open session (R215): display off, release the sink on both answers, report the first. -/
def closeOpen (s : State) : Host.Outcome State Fault Refusal :=
  let t := s.setDisplayOn false
  let r := perform (t.command t.dc) t
  unlessStalled s (countWrites (t.command t.dc)) { r with state := r.state.closeSession }.report

/-- CLOSE (R215): on a closed session nothing but Ok, "exactly once"; before any INIT refused (R196). -/
def execClose (s : State) : Host.Outcome State Fault Refusal :=
  match s.session with
  | .closed => .next s.returnOk
  | .opened => closeOpen s
  | .unbuilt => .refused .sessionNotOpen

end Sys2Proof.Machine
end

