-- ==== Sys2Proof/Machine/Transport.lean ====
section
/-! DEFINITION. The NibbleTransport micro-operations run on their own (40_transport.md R90, R91, R93; DESIGN CHOICE, log
14). -/

namespace Sys2Proof.Machine

/-- SEND(value, rs, bl) (R90): six writes, four waits, TransportError at the first failed write (R93). -/
def execSend (value : Byte) (rs bl : Bool) (s : State) : Host.Outcome State Fault Refusal :=
  whenOpen s (transmit s (sendActs s.cfg value rs bl))

/-- BLWRITE(bl) (R91): one write, no wait. -/
def execBlwrite (bl : Bool) (s : State) : Host.Outcome State Fault Refusal :=
  whenOpen s (transmit s (blwriteActs s.cfg bl))

end Sys2Proof.Machine
end

