-- ==== Sys2Proof/Machine/Dispatch.lean ====
section
/-! DEFINITION. One arm per instruction: the direct call of its meaning. -/

namespace Sys2Proof.Machine

def exec (i : Instr) (s : State) : Host.Outcome State Fault Refusal :=
  match i with
  | .init rows columns => Sys2Proof.Machine.execInit rows columns s
  | .close => Sys2Proof.Machine.execClose s
  | .setBacklight on => Sys2Proof.Machine.execSetBacklight on s
  | .setDisplay on => Sys2Proof.Machine.execSetDisplay on s
  | .setCursorVisible on => Sys2Proof.Machine.execSetCursorVisible on s
  | .setCursorBlinking on => Sys2Proof.Machine.execSetCursorBlinking on s
  | .setEntryMode leftToRight autoscroll => Sys2Proof.Machine.execSetEntryMode leftToRight autoscroll s
  | .clear => Sys2Proof.Machine.execClear s
  | .home => Sys2Proof.Machine.execHome s
  | .shiftDisplay right => Sys2Proof.Machine.execShiftDisplay right s
  | .shiftCursor right => Sys2Proof.Machine.execShiftCursor right s
  | .setCursorPosition column row => Sys2Proof.Machine.execSetCursorPosition column row s
  | .writeCharacter code => Sys2Proof.Machine.execWriteCharacter code s
  | .createCustomCharacter location bitmap => Sys2Proof.Machine.execCreateCustomCharacter location bitmap s
  | .displayTextRow text row => Sys2Proof.Machine.execDisplayTextRow text row s
  | .displayTextAt text row column => Sys2Proof.Machine.execDisplayTextAt text row column s
  | .layoutText text => Sys2Proof.Machine.execLayoutText text s
  | .clearDisplay => Sys2Proof.Machine.execClearDisplay s
  | .returnHome => Sys2Proof.Machine.execReturnHome s
  | .entryModeSet leftToRight autoscroll => Sys2Proof.Machine.execEntryModeSet leftToRight autoscroll s
  | .displayControl on cursor blink => Sys2Proof.Machine.execDisplayControl on cursor blink s
  | .cursorDisplayShift moveDisplay moveRight => Sys2Proof.Machine.execCursorDisplayShift moveDisplay moveRight s
  | .functionSet eightBitBus twoLine tallFont => Sys2Proof.Machine.execFunctionSet eightBitBus twoLine tallFont s
  | .setCgramAddr location => Sys2Proof.Machine.execSetCgramAddr location s
  | .setDdramAddr offset => Sys2Proof.Machine.execSetDdramAddr offset s
  | .send value rs bl => Sys2Proof.Machine.execSend value rs bl s
  | .blwrite bl => Sys2Proof.Machine.execBlwrite bl s

end Sys2Proof.Machine
end

