-- ==== Sys2Proof/Machine/Step.lean ====
section
/-! DEFINITION. One step: take the next request, decode it, run it (20_memory.md R50; D22: an operation is one step). -/

namespace Sys2Proof.Machine

/-- One step. With no request outstanding the block waits: nothing changes (R13; DESIGN CHOICE, log 17). A request that
names no operation has no step (R72). -/
def step (s : State) : Host.Outcome State Fault Refusal :=
  match s.takeRequest with
  | none => .next s
  | some (r, t) =>
    match decode s.cfg r with
    | .ok i => exec i t
    | .error e => .refused (.undecodable e)

/-- The request a word of the opcode table stands for, as the next one. A word that stands for no instruction is put at the
host port, where the decoder refuses its op code (R72; DESIGN CHOICE, log 16, DESIGN CHOICE, log 19). -/
def State.withFetchWord (s : State) (nbits w : Nat) : State :=
  let unknown : Request := .host { op := BitVec.ofNat 8 w, a := 0, b := 0, data := [] }
  s.place (if nbits = 8 then (tableRequest w).getD unknown else unknown)

end Sys2Proof.Machine
end

