-- ==== Sys2Proof/Safety.lean ====
section
/-! DEFINITION. The terms claims are stated in: what a run of events looks like for given answers of the sink, the
invariants of the machine, and the classes of instructions. -/

namespace Sys2Proof.Machine

/-! ## Classes of instructions -/

/-- The operations of the host request port (30_encoding.md R70). -/
def isHostOp : Instr → Bool
  | .init _ _ => true
  | .close => true
  | .setBacklight _ => true
  | .setDisplay _ => true
  | .setCursorVisible _ => true
  | .setCursorBlinking _ => true
  | .setEntryMode _ _ => true
  | .clear => true
  | .home => true
  | .shiftDisplay _ => true
  | .shiftCursor _ => true
  | .setCursorPosition _ _ => true
  | .writeCharacter _ => true
  | .createCustomCharacter _ _ => true
  | .displayTextRow _ _ => true
  | .displayTextAt _ _ _ => true
  | .layoutText _ => true
  | .clearDisplay => false
  | .returnHome => false
  | .entryModeSet _ _ => false
  | .displayControl _ _ _ => false
  | .cursorDisplayShift _ _ => false
  | .functionSet _ _ _ => false
  | .setCgramAddr _ => false
  | .setDdramAddr _ => false
  | .send _ _ _ => false
  | .blwrite _ => false

/-- The calls of a CommandEncoder function (41_command_encoder.md). -/
def isEncoderCall : Instr → Bool
  | .clearDisplay => true
  | .returnHome => true
  | .entryModeSet _ _ => true
  | .displayControl _ _ _ => true
  | .cursorDisplayShift _ _ => true
  | .functionSet _ _ _ => true
  | .setCgramAddr _ => true
  | .setDdramAddr _ => true
  | .init _ _ => false
  | .close => false
  | .setBacklight _ => false
  | .setDisplay _ => false
  | .setCursorVisible _ => false
  | .setCursorBlinking _ => false
  | .setEntryMode _ _ => false
  | .clear => false
  | .home => false
  | .shiftDisplay _ => false
  | .shiftCursor _ => false
  | .setCursorPosition _ _ => false
  | .writeCharacter _ => false
  | .createCustomCharacter _ _ => false
  | .displayTextRow _ _ => false
  | .displayTextAt _ _ _ => false
  | .layoutText _ => false
  | .send _ _ _ => false
  | .blwrite _ => false

/-- The host operations other than INIT and CLOSE: "every other operation" of R196's table. -/
def isOrdinaryHostOp : Instr → Bool
  | .setBacklight _ => true
  | .setDisplay _ => true
  | .setCursorVisible _ => true
  | .setCursorBlinking _ => true
  | .setEntryMode _ _ => true
  | .clear => true
  | .home => true
  | .shiftDisplay _ => true
  | .shiftCursor _ => true
  | .setCursorPosition _ _ => true
  | .writeCharacter _ => true
  | .createCustomCharacter _ _ => true
  | .displayTextRow _ _ => true
  | .displayTextAt _ _ _ => true
  | .layoutText _ => true
  | .init _ _ => false
  | .close => false
  | .clearDisplay => false
  | .returnHome => false
  | .entryModeSet _ _ => false
  | .displayControl _ _ _ => false
  | .cursorDisplayShift _ _ => false
  | .functionSet _ _ _ => false
  | .setCgramAddr _ => false
  | .setDdramAddr _ => false
  | .send _ _ _ => false
  | .blwrite _ => false

/-- A validation error (60_exceptions.md R188: codes 1 to 5). -/
def HostResult.isValidation : HostResult → Bool
  | .ok => false
  | .transportError => false
  | .lineOutOfRange => true
  | .columnOutOfRange => true
  | .textTooLong => true
  | .invalidCustomCharLocation => true
  | .invalidCustomCharLength => true

/-- The number of a result (30_encoding.md R71). -/
def HostResult.code : HostResult → Nat
  | .ok => 0
  | .lineOutOfRange => 1
  | .columnOutOfRange => 2
  | .textTooLong => 3
  | .invalidCustomCharLocation => 4
  | .invalidCustomCharLength => 5
  | .transportError => 6

/-! ## Traffic for given answers -/

/-- An answer of the sink: true is Ok, false is Fail (20_memory.md R41). -/
def SinkAnswer.ofBool : Bool → SinkAnswer
  | true => .ok
  | false => .fail

/-- The events an event list gives when its writes are answered so: each write with its answer, and nothing after the first
that failed (40_transport.md R93). -/
def cutTrace : List Act → List Bool → List Event
  | [], _ => []
  | .wait ns :: rest, answers => .wait ns :: cutTrace rest answers
  | .write b :: rest, true :: answers => .write b true :: cutTrace rest answers
  | .write b :: _, false :: _ => [.write b false]
  | .write _ :: _, [] => []

/-- The sink's coming answers begin with these, and the sink goes on with `rest`. -/
def AnswersAre (s : State) (answers : List Bool) (rest : List SinkAnswer) : Prop :=
  s.sinkAnswers = answers.map SinkAnswer.ofBool ++ rest

/-- The sink never leaves a listed write without an answer (R231: the fairness assumption). -/
def SinkReplies (s : State) : Prop := SinkAnswer.silent ∉ s.sinkAnswers

/-- What a transmission leaves of the block and of what an observer sees, for given answers: the trace is extended by the
cut event list, the result is Ok exactly if every write was answered Ok, XFAULT is set by a Fail, and nothing else of
the block changes. `DS` is `ds`, the value the operation gave it before it transmitted (R120). -/
structure Transmitted (s : State) (ds : DisplayState) (acts : List Act) (answers : List Bool) (t : State) : Prop where
  trace    : t.trace = s.trace ++ cutTrace acts answers
  result   : t.result = some (if answers.all id then .ok else .transportError)
  xfault   : t.xfault = (s.xfault || !answers.all id)
  ds       : t.ds = ds
  cfg      : t.cfg = s.cfg
  session  : t.session = s.session
  rows     : t.rows = s.rows
  columns  : t.columns = s.columns
  encoded  : t.encoded = s.encoded
  requests : t.requests = s.requests
  innerCall : t.innerCall = s.innerCall

/-- Executing `i` in `s` answers a next state in which the event list has been transmitted, whatever the sink answers. -/
def Transmits (i : Instr) (s : State) (ds : DisplayState) (acts : List Act) : Prop :=
  ∀ answers rest, answers.length = countWrites acts → AnswersAre s answers rest →
    ∃ t, exec i s = .next t ∧ Transmitted s ds acts answers t

/-- The event list of several SENDs, each given as its register select and value, with one backlight bit. -/
def sendAll (p : Params) (bl : Bool) : List (Bool × Byte) → List Act
  | [] => []
  | (rs, value) :: rest => sendActs p value rs bl ++ sendAll p bl rest

/-- The SENDs of one row of text (44_text_ops.md R151, R152): the address of column 0, `columns` spaces, the address of
`column`, the characters. `base` is the row's ROW_OFFSET. -/
def textSends (p : Params) (columns base column : Nat) (text : List Byte) : List (Bool × Byte) :=
  (false, BitVec.ofNat 8 (0x80 + base)) :: List.replicate columns (true, p.space)
    ++ (false, BitVec.ofNat 8 (0x80 + base + column)) :: text.map (fun c => (true, c))

/-- The SENDs of the rows of a laid-out text, from row `r` on (45_text_layout.md R167). -/
def rowSends (p : Params) (columns : Nat) : List (List Byte) → Nat → List (Bool × Byte)
  | [], _ => []
  | line :: rest, r => textSends p columns (rowOffset r) 0 line ++ rowSends p columns rest (r + 1)

/-- What DDRAM reads as once a row of text has been written over the contents `before` (44_text_ops.md R151, R152): the text
from the row's base plus `column` on, spaces in the rest of the row, and `before` elsewhere. -/
def rowImage (columns : Nat) (space : Byte) (base column : Nat) (text : List Byte) (before : Nat → Option Byte) (a : Nat) :
    Option Byte :=
  if base + column ≤ a ∧ a < base + column + text.length then text[a - (base + column)]?
  else if base ≤ a ∧ a < base + columns then some space
  else before a

/-- What DDRAM reads as once the rows of a laid-out text, from row `r` on, have been written in order: where the rows of a
wide geometry overlap (70_reset_and_hazards.md R228), the later one stands. -/
def rowsImage (columns : Nat) (space : Byte) : List (List Byte) → Nat → (Nat → Option Byte) → Nat → Option Byte
  | [], _, before => before
  | line :: rest, r, before => rowsImage columns space rest (r + 1) (rowImage columns space (rowOffset r) 0 line before)

/-- All the events of INIT in order (70_reset_and_hazards.md R211). -/
def initEvents (p : Params) : List Act :=
  sendAll p false (p.initPreamble.map (fun v => (false, v)))
    ++ sendAll p false
      [(false, functionSetByte p false true false), (false, displayControlByte p p.initDisplayOn false false),
        (false, entryModeByte p true false), (false, 0x01)]
    ++ [.wait p.tLong, .write p.blMask]

/-- Row `row` exists and starts at DDRAM address `base`: the table of 10_state.md R25. -/
def RowBase (row : Int) (base : Nat) : Prop :=
  (row = 0 ∧ base = 0x00) ∨ (row = 1 ∧ base = 0x40) ∨ (row = 2 ∧ base = 0x14) ∨ (row = 3 ∧ base = 0x54)

/-- A session in which every operation can run: open, with legal parameters and a legal geometry (R32). -/
structure Usable (s : State) : Prop where
  params   : s.cfg.wf = true
  opened   : s.session = .opened
  geometry : geometryOk s.rows s.columns = true

/-- The sink answers Ok to the next `n` writes. -/
def OkFor (s : State) (n : Nat) : Prop := ∃ rest, s.sinkAnswers = List.replicate n .ok ++ rest

/-- The writes of an event list of the trace. -/
def writesOf : List Event → List (Byte × Bool)
  | [] => []
  | .write b ok :: rest => (b, ok) :: writesOf rest
  | .wait _ :: rest => writesOf rest
  | .release :: rest => writesOf rest

/-- How many times the sink was released. -/
def releases : List Event → Nat
  | [] => 0
  | .release :: rest => releases rest + 1
  | .write _ _ :: rest => releases rest
  | .wait _ :: rest => releases rest

/-! ## Invariants -/

/-- The panel is ready for a byte and will read it as the block sends it: 4-bit mode, high nibble next, enable line low
(10_state.md R29, 20_memory.md R44). -/
structure InPhase (s : State) : Prop where
  width  : s.panel.width = .four
  phase  : s.panel.phase = .high
  enable : enHigh s.cfg s.outputs = false

/-- The invariant of every step: legal parameters (R7, R64), a legal geometry in an open session (R32), the panel's memories
in canonical form, the RW bit 0 in every byte ever written (30_encoding.md R67 (c)), and the enable line low while no
write of the session has failed (R32). -/
structure Inv (s : State) : Prop where
  params    : s.cfg.wf = true
  geometry  : s.session = .opened → geometryOk s.rows s.columns = true
  memory    : s.panel.memoryWf = true
  writeOnly : ∀ b ok, Event.write b ok ∈ s.trace → hasBit b s.cfg.rwMask = false
  enable    : s.session = .opened → s.xfault = false → enHigh s.cfg s.outputs = false

/-- The nibble-phase invariant of the host's operations (20_memory.md R44): in an open session without a transport error the
panel is in phase. -/
structure PhaseKept (s : State) : Prop where
  params   : s.cfg.wf = true
  geometry : s.session = .opened → geometryOk s.rows s.columns = true
  inPhase  : s.session = .opened → s.xfault = false → InPhase s

end Sys2Proof.Machine
end

