-- ==== Sys2Proof/Certificates/Slice0/Obligations.lean ====
section
/-! DEFINITION. The statements about LCDSER. Each docstring names the rules of spec/ it formalises. Integers are unbounded
(D2), parameters are those of the state (R7), so a statement about every state is about every parameter value. -/

open Sys2Proof Sys2Proof.Machine

/-! ## Encodings (30_encoding.md) -/

/-- R62 to R66, R70 (the request records as log 15 has them): a well-formed instruction has a request, and the decoder
reads it back with every operand. -/
def Obligations.DecodeOfEncodeIsTheInstruction : Prop :=
  ∀ (p : Params) (i : Instr), p.wf = true → i.wf = true → ∃ r, encode p i = some r ∧ decode p r = .ok i

/-- R67: the decoder gives only well-formed instructions, and a command byte or bus sequence it accepts is the one its
encoder writes (the bits written 0 are D27); so no reserved byte falls through to a neighbour. (A host record may carry
values in unused fields.) -/
def Obligations.AcceptedBytesAreExactlyEncoderOutput : Prop :=
  ∀ (p : Params) (r : Request) (i : Instr), p.wf = true → decode p r = .ok i →
    i.wf = true ∧ (isHostOp i = false → encode p i = some r)

/-- R63, with the default flag positions (D4, from general knowledge; log 3): match, mask and operand bits of all eight
families, and no other byte. -/
def Obligations.CommandBytesHaveTheTablesLayout : Prop :=
  ∀ (d : Bool) (t : PanelUp) (b : Byte),
    let i := decode (Params.ofOpen d t) (.inner (.encoder b))
    (b = 0x01 → i = .ok .clearDisplay) ∧
    (b = 0x02 → i = .ok .returnHome) ∧
    (b &&& 0xFC = 0x04 → i = .ok (.entryModeSet (b.getLsbD 1) (b.getLsbD 0))) ∧
    (b &&& 0xF8 = 0x08 → i = .ok (.displayControl (b.getLsbD 2) (b.getLsbD 1) (b.getLsbD 0))) ∧
    (b &&& 0xF3 = 0x10 → i = .ok (.cursorDisplayShift (b.getLsbD 3) (b.getLsbD 2))) ∧
    (b &&& 0xE3 = 0x20 → i = .ok (.functionSet (b.getLsbD 4) (b.getLsbD 3) (b.getLsbD 2))) ∧
    (b &&& 0xC7 = 0x40 → i = .ok (.setCgramAddr (b.extractLsb' 3 3).toNat)) ∧
    (b &&& 0x80 = 0x80 → i = .ok (.setDdramAddr (b.extractLsb' 0 7).toNat)) ∧
    (b ≠ 0x01 ∧ b ≠ 0x02 ∧ b &&& 0xFC ≠ 0x04 ∧ b &&& 0xF8 ≠ 0x08 ∧ b &&& 0xF3 ≠ 0x10 ∧ b &&& 0xE3 ≠ 0x20 ∧
      b &&& 0xC7 ≠ 0x40 ∧ b &&& 0x80 ≠ 0x80 → i = .error (.noSuchCommand b))

/-- R63, R70, R66: a few words written out from the spec's encodings, with the default positions (D3, D4; log 3). -/
def Obligations.WordsOfTheSpecDecode : Prop :=
  ∀ (d : Bool) (t : PanelUp),
    let p := Params.ofOpen d t
    decode p (.inner (.encoder 0b00101000)) = .ok (.functionSet false true false) ∧
    decode p (.inner (.encoder 0b11000101)) = .ok (.setDdramAddr 0x45) ∧
    decode p (.inner (.encoder 0b01011000)) = .ok (.setCgramAddr 3) ∧
    decode p (.inner (.transport [0x49, 0x4D, 0x49, 0x19, 0x1D, 0x19])) = .ok (.send 0x41 true true) ∧
    decode p (.inner (.transport [0b00001000])) = .ok (.blwrite true) ∧
    decode p (.host { op := 0x30, a := 5, b := 1, data := [] }) = .ok (.setCursorPosition 5 1) ∧
    decode p (.host { op := 0x14, a := 0, b := 1, data := [] }) = .ok (.setEntryMode false true) ∧
    decode p (.host { op := 0x41, a := 1, b := 3, data := [0x4F, 0x4B] }) = .ok (.displayTextAt [0x4F, 0x4B] 1 3)

/-- R50, D22: a step takes the first request of the host's program and executes the instruction it decodes to, with the
request taken out of the program; with nothing outstanding nothing changes (log 17). A call put to an inner component from
outside, which is the model's own (log 14), goes before the program and is taken out likewise. -/
def Obligations.StepExecutesTheDecodedRequest : Prop :=
  (∀ (s : State) (h : HostRecord) (rest : List HostRecord) (i : Instr), s.innerCall = none → s.requests = h :: rest →
    decode s.cfg (.host h) = .ok i → step s = exec i { s with requests := rest }) ∧
  (∀ (s : State) (c : InnerCall) (i : Instr), s.innerCall = some c → decode s.cfg (.inner c) = .ok i →
    step s = exec i { s with innerCall := none }) ∧
  (∀ s : State, s.innerCall = none → s.requests = [] → step s = .next s)

/-- R72 (the refusal is D28, the spec's own): an op code that is not in the table of R70 has no step, and the host's program
reaches only the operations of that table: where no call was put to an inner component from outside (the model's own,
log 14), a step runs one of them, so no SEND of its own, or waits, and none is put by a step, by reset or before any INIT. -/
def Obligations.HostReachesOnlyTheOperationsOfItsPort : Prop :=
  (∀ (s : State) (h : HostRecord) (rest : List HostRecord), s.innerCall = none → s.requests = h :: rest →
    h.op ∉ ([0x00, 0x01, 0x10, 0x11, 0x12, 0x13, 0x14, 0x20, 0x21, 0x22, 0x23, 0x30, 0x31, 0x32, 0x40, 0x41, 0x42] :
      List Byte) → step s = .refused (.undecodable (.unknownOp h.op))) ∧
  (∀ s t : State, s.innerCall = none → step s = .next t →
    t.innerCall = none ∧
    ((s.requests = [] ∧ t = s) ∨
      ∃ h rest i, s.requests = h :: rest ∧ decode s.cfg (.host h) = .ok i ∧ isHostOp i = true ∧
        exec i { s with requests := rest } = .next t)) ∧
  State.reset.innerCall = none ∧ State.unbuilt.innerCall = none

/-! ## The CommandEncoder (41_command_encoder.md) -/

/-- R100 to R107: each encoder call (run on its own, log 14), in every state, returns its byte, which is the sum of its
terms (R108 (d), the spec's derivation), and leaves everything else of the state as it was. -/
def Obligations.EncoderCallsReturnTheSumOfTheirTerms : Prop :=
  ∀ s : State, s.cfg.wf = true →
    let bit := fun (f : Bool) (m : Byte) => if f then m else 0
    exec .clearDisplay s = .next { s with encoded := some 0x01 } ∧
    exec .returnHome s = .next { s with encoded := some 0x02 } ∧
    (∀ l a, exec (.entryModeSet l a) s =
      .next { s with encoded := some (0x04 + bit l s.cfg.fEntryDir + bit a s.cfg.fEntryShift) }) ∧
    (∀ o c b, exec (.displayControl o c b) s =
      .next { s with encoded := some (0x08 + bit o s.cfg.fDispOn + bit c s.cfg.fDispCursor + bit b s.cfg.fDispBlink) }) ∧
    (∀ m r, exec (.cursorDisplayShift m r) s =
      .next { s with encoded := some (0x10 + bit m s.cfg.fShiftDisplay + bit r s.cfg.fShiftRight) }) ∧
    (∀ e t f, exec (.functionSet e t f) s =
      .next { s with encoded := some (0x20 + bit e s.cfg.fFunc8Bit + bit t s.cfg.fFunc2Line + bit f s.cfg.fFuncTall) }) ∧
    (∀ location : Int, 0 ≤ location → location ≤ 7 →
      exec (.setCgramAddr location) s = .next { s with encoded := some (BitVec.ofInt 8 (0x40 + 8 * location)) }) ∧
    (∀ offset : Int, 0 ≤ offset → offset ≤ 0x7F →
      exec (.setDdramAddr offset) s = .next { s with encoded := some (BitVec.ofInt 8 (0x80 + offset)) })

/-- R106, R107, U2: outside its domain an address encoder has no result. -/
def Obligations.AddressEncodersArePartial : Prop :=
  ∀ s : State,
    (∀ location : Int, (location < 0 ∨ 7 < location) → exec (.setCgramAddr location) s = .refused .encoderDomain) ∧
    (∀ offset : Int, (offset < 0 ∨ 0x7F < offset) → exec (.setDdramAddr offset) s = .refused .encoderDomain)

/-! ## The NibbleTransport (40_transport.md) -/

/-- R90, R93 (D12, the spec's own cut), R24 (D13): SEND transmits its ten events, high nibble first, cut short at the first
failed write, in an open session, whatever the sink answers. That a SEND can be run on its own, in an open session, and
reports a result is the model's choice (log 14). -/
def Obligations.SendTransmitsTwoStrobedNibbles : Prop :=
  ∀ (s : State) (value : Byte) (rs bl : Bool), s.session = .opened →
    let rsb : Byte := if rs then s.cfg.rsMask else 0
    let blb : Byte := if bl then s.cfg.blMask else 0
    let n1 := rsb ||| (value &&& 0xF0#8)
    let n2 := rsb ||| ((value <<< 4) &&& 0xF0#8)
    Transmits (.send value rs bl) s s.ds
      [.write (n1 ||| blb), .write (n1 ||| blb ||| s.cfg.enMask), .wait s.cfg.tEnHigh, .write (n1 ||| blb), .wait s.cfg.tSettle,
        .write (n2 ||| blb), .write (n2 ||| blb ||| s.cfg.enMask), .wait s.cfg.tEnHigh, .write (n2 ||| blb), .wait s.cfg.tSettle]

/-- R92 (a), (b), (c), (d), (f): six writes and four waits; EN high in exactly the second and the fifth write; every byte
carries the backlight and register-select bits given and the RW bit 0. A SEND of any value, answered Ok with the panel in
phase, leaves no partial nibble pending and the enable line low (the panel as log 8 has it; a SEND of its own is log 14). -/
def Obligations.SendBytesCarryTheirControlBits : Prop :=
  (∀ (p : Params) (value : Byte) (rs bl : Bool), p.wf = true →
    let events := cutTrace (sendActs p value rs bl) (List.replicate 6 true)
    events.length = 10 ∧
    (writesOf events).map (fun w => hasBit w.1 p.enMask) = [false, true, false, false, true, false] ∧
    ∀ w ∈ writesOf events, w.2 = true ∧ hasBit w.1 p.blMask = bl ∧ hasBit w.1 p.rsMask = rs ∧ hasBit w.1 p.rwMask = false) ∧
  (∀ (s : State) (value : Byte) (rs bl : Bool), Usable s → InPhase s → OkFor s 6 →
    ∃ t, exec (.send value rs bl) s = .next t ∧ t.result = some .ok ∧ t.panel.phase = .high ∧
      enHigh t.cfg t.outputs = false)

/-- R49 (its latching rule is D24, the spec's own), R92 (e), S1: for every sequence of SENDs answered Ok, the reference
receiver recovers exactly the register selects and bytes sent, for every legal choice of the masks and either backlight.
-/
def Obligations.ReceiverRecoversEverySequenceSent : Prop :=
  ∀ (p : Params) (bl : Bool) (sends : List (Bool × Byte)), p.wf = true →
    receive p (cutTrace (sendAll p bl sends) (List.replicate (6 * sends.length) true)) = sends

/-- R224 (the spec's derivation), V10 to V15: how many strobes the writes answered Ok have made when the `k`-th write of
a SEND fails: none up to the third, one from the fourth on, so that nibble phase is then lost. -/
def Obligations.FailedSendLosesNibblePhase : Prop :=
  ∀ (p : Params) (value : Byte) (rs bl : Bool) (k : Nat), p.wf = true → 1 ≤ k → k ≤ 6 →
    (strobesOf p (okBytes (cutTrace (sendActs p value rs bl) (List.replicate (k - 1) true ++ [false])))).length =
      if 4 ≤ k then 1 else 0

/-- R91 (D5, the spec's own choice of the byte): BLWRITE is one write of the backlight bit and no wait; it makes no strobe, so
where the enable line is low and the write is answered Ok the panel is as before. That a BLWRITE can be run on its own, in
an open session, and reports a result is the model's choice (log 14). -/
def Obligations.BlwriteIsOneWriteWithoutStrobe : Prop :=
  ∀ (s : State) (bl : Bool), s.session = .opened →
    Transmits (.blwrite bl) s s.ds [.write (if bl then s.cfg.blMask else 0)] ∧
    (enHigh s.cfg s.outputs = false → OkFor s 1 → ∃ t, exec (.blwrite bl) s = .next t ∧ t.panel = s.panel)

/-- R231, U12: an operation whose sink never answers one of its writes never returns (a fault, log 6; here SEND, at each
of its six writes); and no operation stops for ever in any other way. -/
def Obligations.OnlyASilentSinkHangs : Prop :=
  (∀ (s : State) (value : Byte) (rs bl : Bool) (k : Nat) (rest : List SinkAnswer), s.session = .opened → k < 6 →
    s.sinkAnswers = List.replicate k .ok ++ .silent :: rest → exec (.send value rs bl) s = .fault .sinkNeverAnswers) ∧
  (∀ (s : State) (i : Instr) (f : Fault), SinkReplies s → exec i s ≠ .fault f)

/-! ## The setters, clear, home and the shifts (42_controller_ops.md) -/

/-- R121, R91 (the byte is D5, the spec's own): SET_BACKLIGHT updates its flag and makes one write outside SEND; it
makes no strobe, so where the enable line is low and the write is answered Ok the panel is as before. -/
def Obligations.SetBacklightIsOneWriteWithoutStrobe : Prop :=
  ∀ (s : State) (on : Bool), s.session = .opened →
    Transmits (.setBacklight on) s { s.ds with backlightOn := on } [.write (if on then s.cfg.blMask else 0)] ∧
    (enHigh s.cfg s.outputs = false → OkFor s 1 → ∃ t, exec (.setBacklight on) s = .next t ∧ t.panel = s.panel)

/-- R122, R123, R124, R120: the three display setters write their flag, then SEND the display-control command recomputed
from DS, whatever the sink answers; the flag stays updated where a write fails. That the traffic ends at that write is D12
and that XFAULT is set is D13, R24, the spec's own. -/
def Obligations.DisplaySettersUpdateThenTransmit : Prop :=
  ∀ (s : State) (on : Bool), s.session = .opened →
    Transmits (.setDisplay on) s { s.ds with displayOn := on }
      (sendActs s.cfg (displayControlByte s.cfg on s.ds.cursorVisible s.ds.cursorBlinking) false s.ds.backlightOn) ∧
    Transmits (.setCursorVisible on) s { s.ds with cursorVisible := on }
      (sendActs s.cfg (displayControlByte s.cfg s.ds.displayOn on s.ds.cursorBlinking) false s.ds.backlightOn) ∧
    Transmits (.setCursorBlinking on) s { s.ds with cursorBlinking := on }
      (sendActs s.cfg (displayControlByte s.cfg s.ds.displayOn s.ds.cursorVisible on) false s.ds.backlightOn)

/-- R125: SET_ENTRY_MODE writes its two flags, then SENDs the entry-mode command. That the traffic ends at a failed write is
D12 and that XFAULT is set is D13, R24, the spec's own. -/
def Obligations.EntryModeSetterUpdatesThenTransmits : Prop :=
  ∀ (s : State) (leftToRight autoscroll : Bool), s.session = .opened →
    Transmits (.setEntryMode leftToRight autoscroll) s
      { s.ds with entryLeftToRight := leftToRight, autoscrollOn := autoscroll }
      (sendActs s.cfg (entryModeByte s.cfg leftToRight autoscroll) false s.ds.backlightOn)

/-- R126, R127, R222: CLEAR and HOME SEND their command, then wait `T_LONG`; no DS field changes. -/
def Obligations.ClearAndHomeWaitLongAfterTheirCommand : Prop :=
  ∀ s : State, s.session = .opened →
    Transmits .clear s s.ds (sendActs s.cfg 0x01 false s.ds.backlightOn ++ [.wait s.cfg.tLong]) ∧
    Transmits .home s s.ds (sendActs s.cfg 0x02 false s.ds.backlightOn ++ [.wait s.cfg.tLong])

/-- R128, R129: the two shifts SEND their command; no state is persisted. That the traffic ends at a failed write is D12 and
that XFAULT is set is D13, R24, the spec's own. -/
def Obligations.ShiftsSendOneCommand : Prop :=
  ∀ (s : State) (right : Bool), s.session = .opened →
    Transmits (.shiftDisplay right) s s.ds (sendActs s.cfg (shiftByte s.cfg true right) false s.ds.backlightOn) ∧
    Transmits (.shiftCursor right) s s.ds (sendActs s.cfg (shiftByte s.cfg false right) false s.ds.backlightOn)

/-- R130 (C8, the spec's own reading): "the trace of a setter depends only on DS after the update, never on DS before
it": two calls that leave the same DS, with the same parameters, append the same events when they return Ok. So
repeating a call sends it again. -/
def Obligations.SetterTraceDependsOnTheNewStateOnly : Prop :=
  ∀ (i : Instr) (s s' t t' : State) (ev ev' : List Event),
    ((∃ on, i = .setBacklight on) ∨ (∃ on, i = .setDisplay on) ∨ (∃ on, i = .setCursorVisible on) ∨
      (∃ on, i = .setCursorBlinking on) ∨ ∃ l a, i = .setEntryMode l a) →
    s.cfg = s'.cfg → exec i s = .next t → exec i s' = .next t' → t.ds = t'.ds → t.result = some .ok → t'.result = some .ok →
    t.trace = s.trace ++ ev → t'.trace = s'.trace ++ ev' → ev = ev' ∧ ev ≠ []

/-! ## The DDRAM address mapper and the data operations (43_addressing_data_ops.md) -/

/-- R140, R141, R25: for a row of the display and a column up to one past its end, SET_CURSOR_POSITION SENDs 0x80 plus the
row's base plus the column, and nothing else. -/
def Obligations.SetCursorPositionSendsTheMappedAddress : Prop :=
  ∀ (s : State) (column row : Int) (base : Nat), Usable s → RowBase row base → row < s.rows → 0 ≤ column → column ≤ s.columns →
    Transmits (.setCursorPosition column row) s s.ds
      (sendActs s.cfg (BitVec.ofInt 8 (0x80 + base + column)) false s.ds.backlightOn)

/-- R141, R25: the mapper. A row outside the display is LineOutOfRange whatever the column (that the row is checked
first is D10, the spec's own), then a column outside `[0, columns]` is ColumnOutOfRange, else the address is the row's
base plus the column, never above 0x7F. -/
def Obligations.MapperComputesTheAddressOrRaises : Prop :=
  ∀ (s : State) (column row : Int), Usable s →
    ((row < 0 ∨ s.rows ≤ row) → ddramOf s column row = .error .lineOutOfRange) ∧
    (0 ≤ row → row < s.rows → (column < 0 ∨ s.columns < column) → ddramOf s column row = .error .columnOutOfRange) ∧
    (∀ base, RowBase row base → row < s.rows → 0 ≤ column → column ≤ s.columns →
      ddramOf s column row = .ok (base + column) ∧ base + column ≤ 0x7F)

/-- R140, R181, R182, R190: the row is checked first, then the column (D10, the spec's own order); either error changes
nothing but the result. -/
def Obligations.SetCursorPositionErrors : Prop :=
  ∀ (s : State) (column row : Int), s.session = .opened →
    ((row < 0 ∨ s.rows ≤ row) →
      exec (.setCursorPosition column row) s = .next { s with result := some .lineOutOfRange }) ∧
    (0 ≤ row → row < s.rows → (column < 0 ∨ s.columns < column) →
      exec (.setCursorPosition column row) s = .next { s with result := some .columnOutOfRange })

/-- R142: WRITE_CHARACTER SENDs its byte unchanged, as data. -/
def Obligations.WriteCharacterSendsItsByteAsData : Prop :=
  ∀ (s : State) (code : Byte), s.session = .opened →
    Transmits (.writeCharacter code) s s.ds (sendActs s.cfg code true s.ds.backlightOn)

/-- R143, R226: CREATE_CUSTOM_CHARACTER SENDs the slot's address, then the eight bytes as given, and no address after. -/
def Obligations.CustomCharacterSendsSlotAndEightBytes : Prop :=
  ∀ (s : State) (location : Int) (bitmap : List Byte), s.session = .opened → 0 ≤ location → location ≤ 7 → bitmap.length = 8 →
    Transmits (.createCustomCharacter location bitmap) s s.ds
      (sendAll s.cfg s.ds.backlightOn ((false, BitVec.ofInt 8 (0x40 + 8 * location)) :: bitmap.map (fun b => (true, b))))

/-- R143, R184, R185, R190: the location is checked first, then the length (D10, the spec's own order); either error
changes nothing but the result. -/
def Obligations.CustomCharacterErrors : Prop :=
  ∀ (s : State) (location : Int) (bitmap : List Byte), s.session = .opened →
    ((location < 0 ∨ 7 < location) →
      exec (.createCustomCharacter location bitmap) s = .next { s with result := some .invalidCustomCharLocation }) ∧
    (0 ≤ location → location ≤ 7 → bitmap.length ≠ 8 →
      exec (.createCustomCharacter location bitmap) s = .next { s with result := some .invalidCustomCharLength })

/-! ## The text operations (44_text_ops.md, 45_text_layout.md) -/

/-- R150, R151, R152 (D17, the spec's own way to clear a row): a text that fits is sent as: the row's start, `columns`
spaces, the position, the characters. -/
def Obligations.TextOperationsClearPositionAndWrite : Prop :=
  ∀ (s : State) (text : List Byte) (row : Int) (base column : Nat), Usable s → RowBase row base → row < s.rows →
    text.length + column ≤ s.columns →
    Transmits (.displayTextAt text row column) s s.ds
      (sendAll s.cfg s.ds.backlightOn (textSends s.cfg s.columns base column text)) ∧
    (column = 0 → Transmits (.displayTextRow text row) s s.ds
      (sendAll s.cfg s.ds.backlightOn (textSends s.cfg s.columns base 0 text)))

/-- R151, R150, R167, R181 to R183, R188, R190: length, then row, then column (D10, the spec's own order); each error changes
nothing but the result. LAYOUT_TEXT has the length error alone. -/
def Obligations.TextOperationErrors : Prop :=
  ∀ (s : State) (text : List Byte) (row column : Int), s.session = .opened →
    let long := (s.columns : Int) - column < text.length
    let badRow := row < 0 ∨ s.rows ≤ row
    (long → exec (.displayTextAt text row column) s = .next { s with result := some .textTooLong }) ∧
    (¬ long → badRow → exec (.displayTextAt text row column) s = .next { s with result := some .lineOutOfRange }) ∧
    (¬ long → ¬ badRow → column < 0 →
      exec (.displayTextAt text row column) s = .next { s with result := some .columnOutOfRange }) ∧
    (s.columns < text.length → exec (.displayTextRow text row) s = .next { s with result := some .textTooLong }) ∧
    (text.length ≤ s.columns → badRow →
      exec (.displayTextRow text row) s = .next { s with result := some .lineOutOfRange }) ∧
    (s.rows * s.columns < text.length → exec (.layoutText text) s = .next { s with result := some .textTooLong })

/-- R167 (D19, the spec's own rendering), R166: a text that passes the length check is laid out, and every row of the
result is sent in order, empty ones too; no inner row operation raises an error. -/
def Obligations.LayoutTextRendersEveryRow : Prop :=
  ∀ (s : State) (text : List Byte), Usable s → text.length ≤ s.rows * s.columns →
    ∃ acc, layout s.cfg text s.rows s.columns = .ok acc ∧
      Transmits (.layoutText text) s s.ds (sendAll s.cfg s.ds.backlightOn (rowSends s.cfg s.columns acc 0))

/-- R161: the layout succeeds exactly on texts of at most `rows * columns` elements, line breaks and spaces counted, and
fails with TextTooLong otherwise; the host is told TextTooLong by LAYOUT_TEXT exactly then. -/
def Obligations.LayoutFailsExactlyOnTooLongTexts : Prop :=
  (∀ (p : Params) (text : List Byte) (rows columns : Nat),
    ((∃ acc, layout p text rows columns = .ok acc) ↔ text.length ≤ rows * columns) ∧
    (rows * columns < text.length → layout p text rows columns = .error .textTooLong)) ∧
  (∀ (s t : State) (text : List Byte), exec (.layoutText text) s = .next t →
    (t.result = some .textTooLong ↔ s.rows * s.columns < text.length))

/-- R166 (a), (b) and the subsequence of (c): the layout has exactly `rows` lines of at most `columns` elements, without line
breaks, and together they are a subsequence of the text. -/
def Obligations.LayoutIsWithinTheGeometry : Prop :=
  ∀ (p : Params) (text : List Byte) (rows columns : Nat) (acc : List (List Byte)), layout p text rows columns = .ok acc →
    acc.length = rows ∧ (∀ line ∈ acc, line.length ≤ columns ∧ p.lineBreak ∉ line) ∧ acc.flatten.Sublist text

/-- R163: a text without line breaks and spaces is cut at the column boundary, row after row. -/
def Obligations.LayoutWrapsAtTheColumnBoundary : Prop :=
  ∀ (p : Params) (text : List Byte) (rows columns : Nat), p.lineBreak ∉ text → p.space ∉ text → text.length ≤ rows * columns →
    layout p text rows columns = .ok ((List.range rows).map (fun r => (text.drop (r * columns)).take columns))

/-- R162, R163, R164 (D20, the spec's own reading), R165: a row ends at a line break before it is full, or where it becomes
full. With rows left the layout goes on in the next row, one space right after dropped; on the last row a line break ends
the layout, and a full row leaves nothing over. -/
def Obligations.LineBreakAdvancesOrEndsTheLayout : Prop :=
  ∀ (p : Params) (line rest : List Byte) (rows columns : Nat), p.lineBreak ∉ line →
    let after := if rest.head? = some p.space then rest.tail else rest
    let laidOut := line :: if rows = 0 then [] else
      layoutLoop p.lineBreak p.space rows columns after false 0 (List.replicate rows [])
    (line.length < columns → (line ++ p.lineBreak :: rest).length ≤ (rows + 1) * columns →
      layout p (line ++ p.lineBreak :: rest) (rows + 1) columns = .ok laidOut) ∧
    (line.length = columns → (line ++ rest).length ≤ (rows + 1) * columns →
      layout p (line ++ rest) (rows + 1) columns = .ok laidOut)

/-- R229: what a text operation sends and returns does not depend on the entry mode, nor on any DS flag but the
backlight. -/
def Obligations.TextOperationsIgnoreTheEntryMode : Prop :=
  ∀ (i : Instr) (s t : State) (ds : DisplayState),
    ((∃ text row column, i = .displayTextAt text row column) ∨ (∃ text row, i = .displayTextRow text row) ∨
      ∃ text, i = .layoutText text) →
    ds.backlightOn = s.ds.backlightOn → exec i s = .next t →
    exec i { s with ds := ds } = .next { t with ds := ds }

/-! ## INIT and CLOSE (70_reset_and_hazards.md) -/

/-- R211 (the preamble is D7, `initDisplayOn` OPEN by D8), R212: INIT with a legal geometry, from any session, all writes
answered Ok. That the panel is then as R212 says, whatever the preamble parameter, is the model's choice (log 24). -/
def Obligations.InitEstablishesTheInitialState : Prop :=
  ∀ (s : State) (rows columns : Int), geometryOk rows columns = true → OkFor s (6 * (s.cfg.initPreamble.length + 4) + 1) →
    ∃ t, exec (.init rows columns) s = .next t ∧ t.result = some .ok ∧ t.session = .opened ∧ t.xfault = false ∧
      (t.rows : Int) = rows ∧ (t.columns : Int) = columns ∧
      t.ds = { backlightOn := true, displayOn := s.cfg.initDisplayOn, cursorVisible := false, cursorBlinking := false,
               entryLeftToRight := true, autoscrollOn := false } ∧
      t.trace = s.trace ++ cutTrace (initEvents s.cfg) (List.replicate (6 * (s.cfg.initPreamble.length + 4) + 1) true) ∧
      t.panel.width = .four ∧ t.panel.twoLine = true ∧ t.panel.tallFont = false ∧ t.panel.phase = .high ∧
      t.panel.address = .ddram 0 ∧ t.outputs = s.cfg.blMask ∧
      t.cfg = s.cfg ∧ t.encoded = s.encoded ∧ t.requests = s.requests ∧ t.innerCall = s.innerCall

/-- R217 (D23, the spec's own): INIT whose write number `k` (from 0) fails: TransportError, SESSION Open, XFAULT set,
nothing after the failed write, and DS as assigned so far. -/
def Obligations.FailedInitKeepsWhatItAssigned : Prop :=
  ∀ (s : State) (rows columns : Int) (k : Nat) (rest : List SinkAnswer), geometryOk rows columns = true →
    let n := s.cfg.initPreamble.length
    k < 6 * (n + 4) + 1 → s.sinkAnswers = List.replicate k .ok ++ .fail :: rest →
    ∃ t, exec (.init rows columns) s = .next t ∧ t.result = some .transportError ∧ t.session = .opened ∧ t.xfault = true ∧
      (t.rows : Int) = rows ∧ (t.columns : Int) = columns ∧
      t.ds = (if k < 6 * (n + 1) then DisplayState.initial
              else if k < 6 * (n + 4) then { DisplayState.initial with displayOn := s.cfg.initDisplayOn }
              else { DisplayState.initial with displayOn := s.cfg.initDisplayOn, backlightOn := true }) ∧
      t.trace = s.trace ++ cutTrace (initEvents s.cfg) (List.replicate k true ++ [false])

/-- R211 (D16, the spec's own): outside its domain INIT is refused, in every state. -/
def Obligations.InitRefusesAnIllegalGeometry : Prop :=
  ∀ (s : State) (rows columns : Int),
    (rows < 1 ∨ 4 < rows ∨ columns < 1 ∨ (rows = 1 ∧ 127 < columns) ∨ (rows = 2 ∧ 63 < columns) ∨
      (rows = 3 ∧ 63 < columns) ∨ (rows = 4 ∧ 43 < columns)) ↔ exec (.init rows columns) s = .refused .badGeometry

/-- R215 (D14, the spec's own reading): CLOSE on an open session turns the display off, releases the sink and closes the
session, whatever the sink answers; a failure is still reported. On a closed session it does nothing and returns Ok. -/
def Obligations.CloseReleasesTheSinkOnEveryPath : Prop :=
  (∀ (s : State) (answers : List Bool) (rest : List SinkAnswer), s.session = .opened → answers.length = 6 →
    AnswersAre s answers rest →
    ∃ t, exec .close s = .next t ∧
      t.trace = s.trace ++ cutTrace (sendActs s.cfg
        (displayControlByte s.cfg false s.ds.cursorVisible s.ds.cursorBlinking) false s.ds.backlightOn) answers ++ [.release] ∧
      t.session = .closed ∧ t.ds = { s.ds with displayOn := false } ∧
      t.result = some (if answers.all id then .ok else .transportError) ∧ t.xfault = (s.xfault || !answers.all id) ∧
      t.cfg = s.cfg ∧ t.rows = s.rows ∧ t.columns = s.columns ∧ t.encoded = s.encoded ∧ t.requests = s.requests ∧
      t.innerCall = s.innerCall) ∧
  (∀ s : State, s.session = .closed → exec .close s = .next { s with result := some .ok })

/-- R196 (D15, the spec's own): what SESSION allows. -/
def Obligations.SessionAllowsWhatTheTableSays : Prop :=
  (∀ (s : State) (i : Instr), s.session ≠ .opened → isOrdinaryHostOp i = true → exec i s = .refused .sessionNotOpen) ∧
  (∀ (s : State), s.session = .unbuilt → exec .close s = .refused .sessionNotOpen) ∧
  (∀ (s : State), s.session = .closed → exec .close s = .next { s with result := some .ok }) ∧
  (∀ (s : State) (i : Instr), Usable s → SinkReplies s → isOrdinaryHostOp i = true →
    ∃ t, exec i s = .next t ∧ t.session = .opened) ∧
  (∀ (s : State), s.session = .opened → SinkReplies s → ∃ t, exec .close s = .next t ∧ t.session = .closed) ∧
  (∀ (s : State) (rows columns : Int), geometryOk rows columns = true → SinkReplies s →
    ∃ t, exec (.init rows columns) s = .next t ∧ t.session = .opened)

/-- R210, R30, R212: INIT(2, 16) from the state before any INIT, all writes answered Ok, gives the state after reset (the
geometry of State.reset is the model's choice, log 2; its trace starts empty, log 1; the panel is log 10, log 24, log 28). -/
def Obligations.ResetIsWhatInitLeaves : Prop :=
  ∃ t, exec (.init 2 16) { State.unbuilt with sinkAnswers := List.replicate 37 .ok } = .next t ∧
    { t with trace := [], ticks := 0 } = State.reset

/-! ## Errors (60_exceptions.md) -/

/-- R188: an operation that returns a validation error has changed nothing but the result. -/
def Obligations.ValidationErrorsHaveNoSideEffect : Prop :=
  ∀ (i : Instr) (s t : State) (e : HostResult), isEncoderCall i = false → exec i s = .next t → t.result = some e →
    e.isValidation = true → t = { s with result := some e }

/-- R189, R186, R93 (D12, the spec's own): after a TransportError XFAULT is set, the failed write is the last of the
operation's events (but for the release that CLOSE adds, R215), every write before it was answered Ok, and no operation
but CLOSE and INIT has changed SESSION. -/
def Obligations.TransportErrorEndsAtTheFailedWrite : Prop :=
  ∀ (i : Instr) (s t : State), isEncoderCall i = false → exec i s = .next t → t.result = some .transportError →
    t.xfault = true ∧
    (∃ ev b, t.trace = s.trace ++ ev ++ .write b false :: (if i = .close then [.release] else []) ∧
      ∀ c ok, Event.write c ok ∈ ev → ok = true) ∧
    ((∀ rows columns, i ≠ .init rows columns) → i ≠ .close → t.session = s.session)

/-- R24 (D13, the spec's own): XFAULT is set exactly by a failed write, cleared only by INIT, and read by no operation. -/
def Obligations.XfaultRecordsFailuresAndIsReadByNothing : Prop :=
  (∀ (i : Instr) (s t : State) (ev : List Event), exec i s = .next t → t.trace = s.trace ++ ev →
    (t.xfault = true ↔ ((∀ rows columns, i ≠ .init rows columns) ∧ s.xfault = true) ∨ ∃ b, Event.write b false ∈ ev)) ∧
  (∀ (i : Instr) (s : State) (x : Bool),
    match exec i s with
    | .next t => ∃ y, exec i { s with xfault := x } = .next { t with xfault := y }
    | .fault f => exec i { s with xfault := x } = .fault f
    | .refused r => exec i { s with xfault := x } = .refused r)

/-! ## Flags, backlight, trace, session (10_state.md, 20_memory.md) -/

/-- R21 (D1, the spec's own packing): DS packs into six bits, bit numbers of the table, and every one of the 64 values
is a legal DS. -/
def Obligations.DisplayStateIsSixIndependentBits : Prop :=
  (∀ ds : DisplayState, DisplayState.unpack ds.pack = ds ∧
    ds.pack.getLsbD 0 = ds.backlightOn ∧ ds.pack.getLsbD 1 = ds.displayOn ∧ ds.pack.getLsbD 2 = ds.cursorVisible ∧
    ds.pack.getLsbD 3 = ds.cursorBlinking ∧ ds.pack.getLsbD 4 = ds.entryLeftToRight ∧ ds.pack.getLsbD 5 = ds.autoscrollOn) ∧
  ∀ v : BitVec 6, (DisplayState.unpack v).pack = v

/-- R28: an operation writes exactly the flags its rule names, on every path that gives a next state (INIT excepted, which
writes them all: see InitEstablishesTheInitialState and FailedInitKeepsWhatItAssigned). -/
def Obligations.OperationsWriteExactlyTheirFlags : Prop :=
  ∀ (i : Instr) (s t : State), (∀ rows columns, i ≠ .init rows columns) → exec i s = .next t →
    t.ds = match i with
      | .setBacklight on => { s.ds with backlightOn := on }
      | .setDisplay on => { s.ds with displayOn := on }
      | .setCursorVisible on => { s.ds with cursorVisible := on }
      | .setCursorBlinking on => { s.ds with cursorBlinking := on }
      | .setEntryMode l a => { s.ds with entryLeftToRight := l, autoscrollOn := a }
      | .close => if s.session = .opened then { s.ds with displayOn := false } else s.ds
      | _ => s.ds

/-- R53: every byte a host operation other than INIT puts on the bus carries the backlight bit of DS, the new value where
the operation has just set it. -/
def Obligations.EveryBusByteCarriesTheBacklight : Prop :=
  ∀ (i : Instr) (s t : State) (ev : List Event), s.cfg.wf = true → isHostOp i = true →
    (∀ rows columns, i ≠ .init rows columns) → exec i s = .next t → t.trace = s.trace ++ ev →
    ∀ b ok, Event.write b ok ∈ ev → hasBit b s.cfg.blMask = t.ds.backlightOn

/-- R50, R22, R7: a step only ever adds events to the end of the trace, never changes a parameter, and changes the
geometry only where its instruction is INIT. -/
def Obligations.TraceOnlyGrowsAndParametersStay : Prop :=
  (∀ s t : State, step s = .next t → t.cfg = s.cfg ∧ s.trace <+: t.trace) ∧
  (∀ (i : Instr) (s t : State), (∀ rows columns, i ≠ .init rows columns) → exec i s = .next t →
    t.rows = s.rows ∧ t.columns = s.columns)

/-- R193, R215, R10: the sink is released once by each CLOSE of an open session and by nothing else. -/
def Obligations.OnlyCloseReleasesTheSink : Prop :=
  ∀ (i : Instr) (s t : State), exec i s = .next t →
    releases t.trace = releases s.trace + (if i = .close ∧ s.session = .opened then 1 else 0)

/-! ## Invariants -/

/-- R32, R67 (c): every step keeps the machine's invariant. -/
def Obligations.EveryStepKeepsTheInvariant : Prop := ∀ s t : State, Inv s → step s = .next t → Inv t

/-- R44: nibble phase, of the panel as R48, R49, log 8 and log 12 have it. Where no call was put to an inner component from
outside (log 14), every step keeps the panel in phase in an open session without a transport error, and puts none. For INIT this rests on R212: that an INIT
answered Ok leaves the panel so, whatever the preamble parameter, is the model's choice (log 24). -/
def Obligations.HostProgramsKeepNibblePhase : Prop :=
  ∀ s t : State, s.innerCall = none → PhaseKept s → step s = .next t → PhaseKept t ∧ t.innerCall = none

/-- R30, R32: both invariants hold after reset and before any INIT. -/
def Obligations.InvariantsHoldAtReset : Prop :=
  Inv State.reset ∧ PhaseKept State.reset ∧ Inv State.unbuilt ∧ PhaseKept State.unbuilt

/-! ## What reaches the panel (20_memory.md R48; log 8 to log 13) -/

/-- R48 (c), R142: a data byte written while the panel is in phase is stored at the current address of the memory the
cursor points into; every other byte of both memories is as before; the address moves by one, up or down as the entry
mode says (which way for which mode is open, log 9), where that stays inside the memory. Where the move would leave the
memory (N20), that the address stays in it is the model's choice (log 9), as are that every address exists and holds all
eight bits (log 10) and that autoscroll does nothing else here (log 29). -/
def Obligations.WriteCharacterStoresOneByte : Prop :=
  ∀ (s : State) (code : Byte), Usable s → InPhase s → OkFor s 6 →
    ∃ t, exec (.writeCharacter code) s = .next t ∧ t.result = some .ok ∧ InPhase t ∧
      (∀ a, s.panel.address = .ddram a →
        (∀ a', Memory.read t.panel.ddram a' = if a' = a.toNat then some code else Memory.read s.panel.ddram a') ∧
        (∀ a', Memory.read t.panel.cgram a' = Memory.read s.panel.cgram a') ∧
        (∃ b, t.panel.address = .ddram b) ∧
        (goesUp s.cfg.panelUp s.panel.entry = true → a ≠ 0x7F → t.panel.address = .ddram (a + 1)) ∧
        (goesUp s.cfg.panelUp s.panel.entry = false → a ≠ 0 → t.panel.address = .ddram (a - 1))) ∧
      (∀ a, s.panel.address = .cgram a →
        (∀ a', Memory.read t.panel.cgram a' = if a' = a.toNat then some code else Memory.read s.panel.cgram a') ∧
        (∀ a', Memory.read t.panel.ddram a' = Memory.read s.panel.ddram a') ∧
        (∃ b, t.panel.address = .cgram b) ∧
        (goesUp s.cfg.panelUp s.panel.entry = true → a ≠ 0x3F → t.panel.address = .cgram (a + 1)) ∧
        (goesUp s.cfg.panelUp s.panel.entry = false → a ≠ 0 → t.panel.address = .cgram (a - 1)))

/-- R48 (e), R45: SET_CURSOR_POSITION moves the panel's cursor to the row's base plus the column and stores nothing. -/
def Obligations.SetCursorPositionMovesThePanelCursor : Prop :=
  ∀ (s : State) (row : Int) (base column : Nat), Usable s → InPhase s → OkFor s 6 → RowBase row base → row < s.rows →
    column ≤ s.columns →
    ∃ t, exec (.setCursorPosition column row) s = .next t ∧ t.result = some .ok ∧ InPhase t ∧
      t.panel.address = .ddram (BitVec.ofNat 7 (base + column)) ∧
      (∀ a, Memory.read t.panel.ddram a = Memory.read s.panel.ddram a) ∧
      (∀ a, Memory.read t.panel.cgram a = Memory.read s.panel.cgram a)

/-- R227 (the spec's derivation): a character written at the parked position one past the row's end is stored at the row's
base plus `columns`. That this address exists and holds the byte is the model's choice (log 10, against N20). -/
def Obligations.ParkedWriteGoesPastTheRow : Prop :=
  ∀ (s : State) (code : Byte) (row : Int) (base : Nat), Usable s → InPhase s → OkFor s 12 → RowBase row base → row < s.rows →
    ∃ t u, exec (.setCursorPosition s.columns row) s = .next t ∧ exec (.writeCharacter code) t = .next u ∧
      u.result = some .ok ∧ Memory.read u.panel.ddram (base + s.columns) = some code

/-- R48 (d), R126, S7: CLEAR puts the panel's cursor at row 0, column 0, so that a character written next is stored there.
HOME puts it there too, which the model deduces (log 11). -/
def Obligations.ClearAndHomePutTheCursorAtTheOrigin : Prop :=
  ∀ (s : State) (i : Instr) (code : Byte), (i = .clear ∨ i = .home) → Usable s → InPhase s → OkFor s 12 →
    ∃ t u, exec i s = .next t ∧ t.result = some .ok ∧ t.panel.address = .ddram 0 ∧
      exec (.writeCharacter code) t = .next u ∧ u.result = some .ok ∧ Memory.read u.panel.ddram 0 = some code

/-- R46, R143, R48 (e): a custom character fills exactly its slot of CGRAM, byte `n` of the bitmap at address
`8 * location + n`, where the panel's address goes up (log 9); every other byte of both memories is as before. The direction
is that of the state before the operation: that the CGRAM-address command leaves the entry mode is the model's choice
(log 28). That all eight bits are sent is D21, the spec's own choice; that they are kept (log 10) and that autoscroll does
nothing else here (log 29) is the model's. -/
def Obligations.CustomCharacterFillsItsSlot : Prop :=
  ∀ (s : State) (location : Nat) (bitmap : List Byte), Usable s → InPhase s → OkFor s 54 →
    goesUp s.cfg.panelUp s.panel.entry = true → location ≤ 7 → bitmap.length = 8 →
    ∃ t, exec (.createCustomCharacter location bitmap) s = .next t ∧ t.result = some .ok ∧ InPhase t ∧
      (∀ n, n < 8 → Memory.read t.panel.cgram (8 * location + n) = bitmap[n]?) ∧
      (∀ a, (a < 8 * location ∨ 8 * location + 8 ≤ a) → Memory.read t.panel.cgram a = Memory.read s.panel.cgram a) ∧
      (∀ a, Memory.read t.panel.ddram a = Memory.read s.panel.ddram a)

/-- R150, R151, R152 (the blank rest of the row is D17, the spec's own), R167 (D19, likewise), R45, R48: the text operations
on the panel, where its address goes up (log 9). A text written to a row: its characters stand from the row's base plus the
column on, the rest of the row is spaces, every other byte of both memories is as before; the row form does so at column 0.
A laid-out text: so for each of its rows in turn, every other byte as before. The direction is that of the state before the
operation: that the address commands in it leave the entry mode is the model's choice (log 28), as are that every address
exists and holds its byte (log 10) and that autoscroll does nothing else here (log 29). -/
def Obligations.TextFillsItsRow : Prop :=
  (∀ (s : State) (text : List Byte) (row : Int) (base column : Nat) (i : Instr), Usable s → InPhase s →
    OkFor s (6 * (s.columns + 2 + text.length)) → goesUp s.cfg.panelUp s.panel.entry = true → RowBase row base →
    row < s.rows → text.length + column ≤ s.columns →
    (i = .displayTextAt text row column ∨ (column = 0 ∧ i = .displayTextRow text row)) →
    ∃ t, exec i s = .next t ∧ t.result = some .ok ∧ InPhase t ∧
      (∀ a, Memory.read t.panel.ddram a = rowImage s.columns s.cfg.space base column text (Memory.read s.panel.ddram) a) ∧
      (∀ a, Memory.read t.panel.cgram a = Memory.read s.panel.cgram a)) ∧
  (∀ (s : State) (text : List Byte), Usable s → InPhase s → OkFor s (6 * (s.rows * (s.columns + 2) + text.length)) →
    goesUp s.cfg.panelUp s.panel.entry = true → text.length ≤ s.rows * s.columns →
    ∃ acc t, layout s.cfg text s.rows s.columns = .ok acc ∧ exec (.layoutText text) s = .next t ∧ t.result = some .ok ∧
      InPhase t ∧
      (∀ a, Memory.read t.panel.ddram a = rowsImage s.columns s.cfg.space acc 0 (Memory.read s.panel.ddram) a) ∧
      (∀ a, Memory.read t.panel.cgram a = Memory.read s.panel.cgram a))

/-- R46: the glyphs persist: no host operation that sends only commands, INIT (a reset) excepted, and not SET_BACKLIGHT,
changes a byte of CGRAM, while the panel is in phase and the sink answers Ok. (What the commands other than the address
commands do to DDRAM the spec does not say; that they keep CGRAM is read from R46, log 13.) -/
def Obligations.CommandsKeepTheGlyphs : Prop :=
  ∀ (i : Instr) (s t : State), Usable s → InPhase s →
    ((∃ on, i = .setBacklight on) ∨ (∃ on, i = .setDisplay on) ∨ (∃ on, i = .setCursorVisible on) ∨
      (∃ on, i = .setCursorBlinking on) ∨ (∃ l a, i = .setEntryMode l a) ∨ i = .clear ∨ i = .home ∨ i = .close ∨
      (∃ r, i = .shiftDisplay r) ∨ (∃ r, i = .shiftCursor r) ∨ ∃ c r, i = .setCursorPosition c r) →
    exec i s = .next t → t.result ≠ some .transportError →
    ∀ a, Memory.read t.panel.cgram a = Memory.read s.panel.cgram a

/-- R48 (c), R125: SET_ENTRY_MODE, in phase and answered Ok, tells the panel its two flags (the panel as log 8 has it) and
keeps the glyphs (R46, log 13). Every other host operation but INIT that returns no TransportError leaves the panel's entry
mode as it was, which for CLEAR, HOME and the other commands is the model's choice (log 28). -/
def Obligations.SetEntryModeTellsThePanel : Prop :=
  (∀ (s : State) (leftToRight autoscroll : Bool), Usable s → InPhase s → OkFor s 6 →
    ∃ t, exec (.setEntryMode leftToRight autoscroll) s = .next t ∧ t.result = some .ok ∧ InPhase t ∧
      t.panel.entry = { leftToRight := leftToRight, autoscroll := autoscroll } ∧
      ∀ a, Memory.read t.panel.cgram a = Memory.read s.panel.cgram a) ∧
  (∀ (i : Instr) (s t : State), Usable s → InPhase s → (isOrdinaryHostOp i = true ∨ i = .close) →
    (∀ l a, i ≠ .setEntryMode l a) →
    exec i s = .next t → t.result ≠ some .transportError → t.panel.entry = s.panel.entry)

/-- R142, R226, R143 (G8; how the address moves is log 9 and log 29, what the commands leave is log 13): CREATE_CUSTOM_CHARACTER leaves
DDRAM as it was and the panel's address in CGRAM, whichever way the address moves. While the address is in CGRAM it stays
there over the setters, the shifts and data bytes, and a character written goes to CGRAM, not DDRAM. -/
def Obligations.DataGoesToCgramUntilAPositioningCommand : Prop :=
  (∀ (s : State) (location : Int) (bitmap : List Byte), Usable s → InPhase s → OkFor s 54 → 0 ≤ location → location ≤ 7 →
    bitmap.length = 8 →
    ∃ t, exec (.createCustomCharacter location bitmap) s = .next t ∧ t.result = some .ok ∧ InPhase t ∧
      (∃ a, t.panel.address = .cgram a) ∧ ∀ a, Memory.read t.panel.ddram a = Memory.read s.panel.ddram a) ∧
  (∀ (i : Instr) (s : State) (a : CgramAddr) (code : Byte), Usable s → InPhase s → OkFor s 12 → s.panel.address = .cgram a →
    ((∃ on, i = .setBacklight on) ∨ (∃ on, i = .setDisplay on) ∨ (∃ on, i = .setCursorVisible on) ∨
      (∃ on, i = .setCursorBlinking on) ∨ (∃ l m, i = .setEntryMode l m) ∨ (∃ r, i = .shiftDisplay r) ∨
      (∃ r, i = .shiftCursor r) ∨ ∃ c, i = .writeCharacter c) →
    ∃ t u b c, exec i s = .next t ∧ t.result = some .ok ∧ t.panel.address = .cgram b ∧
      exec (.writeCharacter code) t = .next u ∧ u.result = some .ok ∧ u.panel.address = .cgram c ∧
      Memory.read u.panel.cgram b.toNat = some code ∧ ∀ a', Memory.read u.panel.ddram a' = Memory.read t.panel.ddram a')
end

