-- ==== Sys2Proof/Laws/Encoding.lean ====
section
/-! SUPPORT. Bit facts about bus bytes and command bytes, for every well-formed choice of the parameters. -/

namespace Sys2Proof.Machine

/-! ## One-bit masks -/

theorem controlMask_cases : ∀ m : Byte, controlMaskOk m = true → m = 1 ∨ m = 2 ∨ m = 4 ∨ m = 8 := by decide

theorem hasBit_or (a b m : Byte) : hasBit (a ||| b) m = (hasBit a m || hasBit b m) := by
  have h : (a ||| b) &&& m = (a &&& m) ||| (b &&& m) := by
    ext i hi
    simp [Bool.and_or_distrib_right]
  rw [Bool.eq_iff_iff]
  simp only [hasBit, h, Bool.or_eq_true, bne_iff_ne, ne_eq]
  rw [show (0 : Byte) = 0#8 from rfl, BitVec.or_eq_zero_iff]
  tauto

theorem hasBit_and_nibble (v : Byte) {m : Byte} (h : controlMaskOk m = true) : hasBit (v &&& 0xF0#8) m = false := by
  rcases controlMask_cases m h with rfl | rfl | rfl | rfl <;> simp [hasBit, BitVec.and_assoc, bne]

theorem hasBit_flagBit_self (f : Bool) {m : Byte} (h : m ≠ 0#8) : hasBit (flagBit f m) m = f := by
  cases f <;> simp [hasBit, flagBit, h]

theorem hasBit_flagBit_other (f : Bool) {m k : Byte} (h : m &&& k = 0) : hasBit (flagBit f m) k = false := by
  cases f <;> simp [hasBit, flagBit, h]

theorem controlMasks_disjoint {m k : Byte} (hm : controlMaskOk m = true) (hk : controlMaskOk k = true) (hne : m ≠ k) :
    m &&& k = 0 := by
  rcases controlMask_cases m hm with rfl | rfl | rfl | rfl <;>
    rcases controlMask_cases k hk with rfl | rfl | rfl | rfl <;> first | rfl | exact absurd rfl hne

/-- The facts about the four masks that R7 requires, one by one. -/
structure Masks (p : Params) : Prop where
  rs : controlMaskOk p.rsMask = true
  rw : controlMaskOk p.rwMask = true
  en : controlMaskOk p.enMask = true
  bl : controlMaskOk p.blMask = true
  rs_rw : p.rsMask &&& p.rwMask = 0
  rs_en : p.rsMask &&& p.enMask = 0
  rs_bl : p.rsMask &&& p.blMask = 0
  en_rw : p.enMask &&& p.rwMask = 0
  en_rs : p.enMask &&& p.rsMask = 0
  en_bl : p.enMask &&& p.blMask = 0
  bl_rw : p.blMask &&& p.rwMask = 0
  bl_en : p.blMask &&& p.enMask = 0
  bl_rs : p.blMask &&& p.rsMask = 0

theorem masks_of_wf {p : Params} (h : p.wf = true) : Masks p := by
  simp only [Params.wf, Params.masksOk, Bool.and_eq_true, bne_iff_ne, ne_eq] at h
  obtain ⟨⟨⟨⟨⟨⟨⟨⟨⟨⟨⟨rs, rw⟩, en⟩, bl⟩, h1⟩, h2⟩, h3⟩, h4⟩, h5⟩, h6⟩, -⟩, -⟩ := h
  have d {m k : Byte} (hm : controlMaskOk m = true) (hk : controlMaskOk k = true) (hne : ¬ m = k) := controlMasks_disjoint hm hk hne
  exact ⟨rs, rw, en, bl, d rs rw h1, d rs en h2, d rs bl h3, d en rw (Ne.symm h4), d en rs (Ne.symm h2), d en bl h6,
    d bl rw (Ne.symm h5), d bl en (Ne.symm h6), d bl rs (Ne.symm h3)⟩

theorem controlMask_ne_zero {m : Byte} (h : controlMaskOk m = true) : m ≠ 0#8 := by
  rcases controlMask_cases m h with rfl | rfl | rfl | rfl <;> decide

/-! ## The bus bytes of a nibble -/

/-- The data byte of one nibble, with EN low: register select, data in bits 7:4, backlight (R66). -/
def idleByte (p : Params) (data : Byte) (rs bl : Bool) : Byte :=
  flagBit rs p.rsMask ||| (data &&& 0xF0#8) ||| flagBit bl p.blMask

theorem enMask_other {p : Params} {k : Byte} (hk : p.enMask &&& k = 0) : hasBit p.enMask k = false := by
  simp [hasBit, hk]

section
variable {p : Params} (h : Masks p) (data : Byte) (rs bl : Bool)
include h

theorem idleByte_en : hasBit (idleByte p data rs bl) p.enMask = false := by
  simp [idleByte, hasBit_or, hasBit_flagBit_other _ h.rs_en, hasBit_and_nibble _ h.en, hasBit_flagBit_other _ h.bl_en]

theorem idleByte_rw : hasBit (idleByte p data rs bl) p.rwMask = false := by
  simp [idleByte, hasBit_or, hasBit_flagBit_other _ h.rs_rw, hasBit_and_nibble _ h.rw, hasBit_flagBit_other _ h.bl_rw]

theorem idleByte_rs : hasBit (idleByte p data rs bl) p.rsMask = rs := by
  simp [idleByte, hasBit_or, hasBit_flagBit_self _ (controlMask_ne_zero h.rs), hasBit_and_nibble _ h.rs,
    hasBit_flagBit_other _ h.bl_rs]

theorem idleByte_bl : hasBit (idleByte p data rs bl) p.blMask = bl := by
  simp [idleByte, hasBit_or, hasBit_flagBit_other _ h.rs_bl, hasBit_and_nibble _ h.bl,
    hasBit_flagBit_self _ (controlMask_ne_zero h.bl)]

theorem strobeByte_en : hasBit (idleByte p data rs bl ||| p.enMask) p.enMask = true := by
  have : hasBit p.enMask p.enMask = true := hasBit_flagBit_self true (controlMask_ne_zero h.en)
  simp [hasBit_or, this]

theorem strobeByte_rw : hasBit (idleByte p data rs bl ||| p.enMask) p.rwMask = false := by
  rw [hasBit_or, idleByte_rw h, enMask_other h.en_rw]; rfl

theorem strobeByte_rs : hasBit (idleByte p data rs bl ||| p.enMask) p.rsMask = rs := by
  rw [hasBit_or, idleByte_rs h, enMask_other h.en_rs, Bool.or_false]

theorem strobeByte_bl : hasBit (idleByte p data rs bl ||| p.enMask) p.blMask = bl := by
  rw [hasBit_or, idleByte_bl h, enMask_other h.en_bl, Bool.or_false]

theorem dataNibble_strobeByte : dataNibble (idleByte p data rs bl ||| p.enMask) = data.extractLsb' 4 4 := by
  have or' : ∀ a b : Byte, dataNibble (a ||| b) = dataNibble a ||| dataNibble b := fun a b => by
    simp [dataNibble, BitVec.extractLsb'_or]
  have low : ∀ m : Byte, controlMaskOk m = true → dataNibble m = 0 := fun m hm => by
    rcases controlMask_cases m hm with rfl | rfl | rfl | rfl <;> decide
  have flag : ∀ (f : Bool) (m : Byte), controlMaskOk m = true → dataNibble (flagBit f m) = 0 := fun f m hm => by
    cases f
    · simp [flagBit, dataNibble]
    · exact low m hm
  have data' : ∀ v : Byte, dataNibble (v &&& 0xF0#8) = v.extractLsb' 4 4 := by decide
  simp [idleByte, or', low _ h.en, flag _ _ h.rs, flag _ _ h.bl, data']

end

theorem highNibbleByte_idle (p : Params) (v : Byte) (rs bl : Bool) :
    highNibbleByte p v rs ||| flagBit bl p.blMask = idleByte p v rs bl := rfl

theorem lowNibbleByte_idle (p : Params) (v : Byte) (rs bl : Bool) :
    lowNibbleByte p v rs ||| flagBit bl p.blMask = idleByte p (v <<< 4) rs bl := rfl

/-- The two nibbles of a byte, high and low, joined, are the byte (S1). -/
theorem joinNibbles_halves : ∀ v : Byte, joinNibbles (v.extractLsb' 4 4) ((v <<< 4).extractLsb' 4 4) = v := by decide

/-- The BLWRITE byte has EN and RW low (R91). -/
theorem blwriteByte_en {p : Params} (h : Masks p) (bl : Bool) : hasBit (blwriteByte p bl) p.enMask = false :=
  hasBit_flagBit_other _ h.bl_en

theorem blwriteByte_rw {p : Params} (h : Masks p) (bl : Bool) : hasBit (blwriteByte p bl) p.rwMask = false :=
  hasBit_flagBit_other _ h.bl_rw

theorem blwriteByte_bl {p : Params} (h : Masks p) (bl : Bool) : hasBit (blwriteByte p bl) p.blMask = bl :=
  hasBit_flagBit_self _ (controlMask_ne_zero h.bl)

end Sys2Proof.Machine
end

