-- ==== Sys2Proof/Laws/Memory.lean ====
section
/-! SUPPORT. The laws of the panel's memories: a read after a write, and the canonical form kept. -/

namespace Sys2Proof.Machine

theorem Memory.read_write_same (m : Memory) (a : Nat) (v : Byte) : Memory.read (Memory.write m a v) a = some v := by
  induction m with
  | nil => simp [Memory.write, Memory.read]
  | cons c rest ih =>
    obtain ⟨b, w⟩ := c
    simp only [Memory.write]
    split
    · simp [Memory.read]
    · split
      · simp [Memory.read]
      · rename_i hne
        simp [Memory.read, hne, ih]

theorem Memory.read_write_other (m : Memory) (a a' : Nat) (v : Byte) (h : a' ≠ a) :
    Memory.read (Memory.write m a v) a' = Memory.read m a' := by
  induction m with
  | nil => simp [Memory.write, Memory.read, h]
  | cons c rest ih =>
    obtain ⟨b, w⟩ := c
    simp only [Memory.write]
    split
    · simp [Memory.read, h]
    · split
      · rename_i hab
        subst hab
        simp [Memory.read, h]
      · simp only [Memory.read, ih]

theorem Memory.mem_write {m : Memory} {a : Nat} {v : Byte} {c : Host.Cell} (h : c ∈ Memory.write m a v) :
    c = (a, v) ∨ c ∈ m := by
  induction m with
  | nil => simpa [Memory.write] using h
  | cons d rest ih =>
    obtain ⟨b, w⟩ := d
    simp only [Memory.write] at h
    split at h
    · simpa using h
    · split at h
      · rcases List.mem_cons.1 h with h | h
        · exact .inl h
        · exact .inr (List.mem_cons_of_mem _ h)
      · rcases List.mem_cons.1 h with h | h
        · exact .inr (h ▸ List.mem_cons_self)
        · exact (ih h).imp_right (List.mem_cons_of_mem _)

theorem Memory.wf_iff {size : Nat} {m : Memory} :
    Memory.wf size m = true ↔ m.Pairwise (fun x y => x.1 < y.1) ∧ ∀ c ∈ m, c.1 < size := by
  simp [Memory.wf, List.pairwise_map]

theorem Memory.wf_nil (size : Nat) : Memory.wf size [] = true := by simp [Memory.wf]

theorem Memory.wf_write {size : Nat} {m : Memory} {a : Nat} {v : Byte} (hm : Memory.wf size m = true) (ha : a < size) :
    Memory.wf size (Memory.write m a v) = true := by
  rw [Memory.wf_iff] at hm ⊢
  refine ⟨?_, fun c hc => ?_⟩
  · obtain ⟨hp, -⟩ := hm
    induction m with
    | nil => simp [Memory.write]
    | cons d rest ih =>
      obtain ⟨b, w⟩ := d
      obtain ⟨hd, hr⟩ := List.pairwise_cons.1 hp
      simp only [Memory.write]
      split
      · rename_i hlt
        refine List.pairwise_cons.2 ⟨fun y hy => ?_, hp⟩
        rcases List.mem_cons.1 hy with rfl | hy
        · exact hlt
        · exact Nat.lt_trans hlt (hd y hy)
      · split
        · rename_i hab
          subst hab
          exact List.pairwise_cons.2 ⟨hd, hr⟩
        · rename_i hnlt hne
          refine List.pairwise_cons.2 ⟨fun y hy => ?_, ih hr⟩
          rcases Memory.mem_write hy with rfl | hy
          · exact Nat.lt_of_le_of_ne (Nat.le_of_not_lt hnlt) (fun h => hne h.symm)
          · exact hd y hy
  · rcases Memory.mem_write hc with rfl | hc
    · exact ha
    · exact hm.2 c hc

end Sys2Proof.Machine
end

