-- ==== Sys2Proof/Laws/Panel.lean ====
section
/-! SUPPORT. Whatever the panel receives, its memories stay in canonical form, and what each receipt does to the address and
to the entry mode. -/

namespace Sys2Proof.Machine

theorem Panel.memoryWf_iff {p : Panel} :
    p.memoryWf = true ↔ Memory.wf ddramSize p.ddram = true ∧ Memory.wf cgramSize p.cgram = true := by
  simp [Panel.memoryWf]

theorem Panel.unknown_memoryWf (n : Nat) : (Panel.unknown n).memoryWf = true :=
  Panel.memoryWf_iff.2 ⟨Memory.wf_nil _, Memory.wf_nil _⟩

theorem Panel.initialised_memoryWf : Panel.initialised.memoryWf = true :=
  Panel.memoryWf_iff.2 ⟨Memory.wf_nil _, Memory.wf_nil _⟩

theorem Panel.store_memoryWf {p : Panel} (h : p.memoryWf = true) (v : Byte) : (p.store v).memoryWf = true := by
  obtain ⟨hd, hc⟩ := Panel.memoryWf_iff.1 h
  unfold Panel.store
  split
  · exact Panel.memoryWf_iff.2 ⟨Memory.wf_write hd (BitVec.isLt _), hc⟩
  · exact Panel.memoryWf_iff.2 ⟨hd, Memory.wf_write hc (BitVec.isLt _)⟩

theorem Panel.receiveData_memoryWf {p : Panel} (h : p.memoryWf = true) (cfg : Params) (n : Nat) (v : Byte) :
    (p.receiveData cfg n v).memoryWf = true := Panel.store_memoryWf h v

theorem Panel.receiveCommand_memoryWf {p : Panel} (h : p.memoryWf = true) (n : Nat) (i : Instr) :
    (p.receiveCommand n i).memoryWf = true := by
  have hc := (Panel.memoryWf_iff.1 h).2
  have cleared : ∀ q : Panel, q.ddram = [] → q.cgram = p.cgram → q.memoryWf = true := fun q hd hg =>
    Panel.memoryWf_iff.2 ⟨hd ▸ Memory.wf_nil _, hg ▸ hc⟩
  cases i <;> first
    | exact Panel.unknown_memoryWf n
    | exact cleared _ rfl rfl
    | exact h

theorem Panel.receiveByte_memoryWf {p : Panel} (h : p.memoryWf = true) (cfg : Params) (n : Nat) (rs : Bool) (v : Byte) :
    (p.receiveByte cfg n rs v).memoryWf = true := by
  unfold Panel.receiveByte
  split
  · exact Panel.receiveData_memoryWf h cfg n v
  · split
    · exact Panel.receiveCommand_memoryWf h n _
    · exact Panel.memoryWf_iff.2 ⟨Memory.wf_nil _, (Panel.memoryWf_iff.1 h).2⟩

theorem Panel.strobe_memoryWf {p : Panel} (h : p.memoryWf = true) (cfg : Params) (n : Nat) (nibble : Nibble) (rs : Bool) :
    (p.strobe cfg n nibble rs).memoryWf = true := by
  unfold Panel.strobe
  split
  · exact Panel.unknown_memoryWf n
  · exact h
  · exact Panel.receiveByte_memoryWf (p := { p with phase := .high }) h cfg n _ _

theorem Panel.outputsChange_memoryWf {p : Panel} (h : p.memoryWf = true) (cfg : Params) (n : Nat) (old new : Byte) :
    (p.outputsChange cfg n old new).memoryWf = true := by
  unfold Panel.outputsChange
  split
  · exact Panel.strobe_memoryWf h cfg n _ _
  · exact h

/-! ## The phase -/

theorem receiveData_phase (p : Panel) (cfg : Params) (n : Nat) (v : Byte) : (p.receiveData cfg n v).phase = p.phase := by
  unfold Panel.receiveData Panel.store
  split <;> rfl

/-- The family of a command byte is always an encoder call, and the panel's phase stays over each (R92 (d)). -/
theorem receiveCommand_phase {cfg : Params} {v : Byte} {i : Instr} (h : decodeCommand cfg v = .ok i) (p : Panel) (n : Nat) :
    (p.receiveCommand n i).phase = p.phase := by
  unfold decodeCommand at h
  split at h
  · cases h
  · rename_i j hj
    split at h
    · cases h
      unfold commandOf at hj
      repeat' split at hj
      all_goals first
        | cases hj; rfl
        | cases hj
    · cases h

/-- Whatever whole byte the panel receives with a high nibble due next, a high nibble is due next after it (R92 (d)). -/
theorem receiveByte_phase {p : Panel} (h : p.phase = .high) (cfg : Params) (n : Nat) (rs : Bool) (v : Byte) :
    (p.receiveByte cfg n rs v).phase = .high := by
  unfold Panel.receiveByte
  split
  · rw [receiveData_phase, h]
  · split
    · rename_i i hi
      rw [receiveCommand_phase hi, h]
    · rfl

/-! ## The address and the entry mode -/

@[simp] theorem strayAddr_ddram (n : Nat) (a : DdramAddr) : strayAddr n (.ddram a) = .ddram (Config.freeDdramAddr n) := rfl

@[simp] theorem strayAddr_cgram (n : Nat) (a : CgramAddr) : strayAddr n (.cgram a) = .cgram (Config.freeCgramAddr n) := rfl

theorem moveAddr_ddram_up (n : Nat) {a : DdramAddr} (h : a ≠ 0x7F) : moveAddr true n (.ddram a) = .ddram (a + 1) := by
  simp only [moveAddr, if_neg h, if_true]

theorem moveAddr_cgram_up (n : Nat) {a : CgramAddr} (h : a ≠ 0x3F) : moveAddr true n (.cgram a) = .cgram (a + 1) := by
  simp only [moveAddr, if_neg h, if_true]

/-- A data byte never moves the address from one memory to the other (R142, R226). -/
theorem moveAddr_ddram (up : Bool) (n : Nat) (a : DdramAddr) : ∃ b, moveAddr up n (.ddram a) = .ddram b := by
  simp only [moveAddr, strayAddr_ddram]
  repeat' split
  all_goals exact ⟨_, rfl⟩

theorem moveAddr_cgram (up : Bool) (n : Nat) (a : CgramAddr) : ∃ b, moveAddr up n (.cgram a) = .cgram b := by
  simp only [moveAddr, strayAddr_cgram]
  repeat' split
  all_goals exact ⟨_, rfl⟩

@[simp] theorem receiveData_entry (p : Panel) (cfg : Params) (n : Nat) (v : Byte) : (p.receiveData cfg n v).entry = p.entry := by
  unfold Panel.receiveData Panel.store
  split <;> rfl

end Sys2Proof.Machine
end

