-- ==== Sys2Proof/Laws/State.lean ====
section
/-! SUPPORT. What each small update of the state does to each field, by `rfl`, so that no proof unfolds a record update. -/

namespace Sys2Proof.Machine

variable (s : State)

/-! ### emit -/

@[simp] theorem emit_cfg (e : Event) : (s.emit e).cfg = s.cfg := rfl
@[simp] theorem emit_session (e : Event) : (s.emit e).session = s.session := rfl
@[simp] theorem emit_rows (e : Event) : (s.emit e).rows = s.rows := rfl
@[simp] theorem emit_columns (e : Event) : (s.emit e).columns = s.columns := rfl
@[simp] theorem emit_ds (e : Event) : (s.emit e).ds = s.ds := rfl
@[simp] theorem emit_xfault (e : Event) : (s.emit e).xfault = s.xfault := rfl
@[simp] theorem emit_result (e : Event) : (s.emit e).result = s.result := rfl
@[simp] theorem emit_encoded (e : Event) : (s.emit e).encoded = s.encoded := rfl
@[simp] theorem emit_trace (e : Event) : (s.emit e).trace = s.trace ++ [e] := rfl
@[simp] theorem emit_outputs (e : Event) : (s.emit e).outputs = s.outputs := rfl
@[simp] theorem emit_panel (e : Event) : (s.emit e).panel = s.panel := rfl
@[simp] theorem emit_requests (e : Event) : (s.emit e).requests = s.requests := rfl
@[simp] theorem emit_innerCall (e : Event) : (s.emit e).innerCall = s.innerCall := rfl
@[simp] theorem emit_sinkAnswers (e : Event) : (s.emit e).sinkAnswers = s.sinkAnswers := rfl
@[simp] theorem emit_ticks (e : Event) : (s.emit e).ticks = s.ticks := rfl

/-! ### withDs -/

@[simp] theorem withDs_cfg (d : DisplayState) : (s.withDs d).cfg = s.cfg := rfl
@[simp] theorem withDs_session (d : DisplayState) : (s.withDs d).session = s.session := rfl
@[simp] theorem withDs_rows (d : DisplayState) : (s.withDs d).rows = s.rows := rfl
@[simp] theorem withDs_columns (d : DisplayState) : (s.withDs d).columns = s.columns := rfl
@[simp] theorem withDs_ds (d : DisplayState) : (s.withDs d).ds = d := rfl
@[simp] theorem withDs_xfault (d : DisplayState) : (s.withDs d).xfault = s.xfault := rfl
@[simp] theorem withDs_result (d : DisplayState) : (s.withDs d).result = s.result := rfl
@[simp] theorem withDs_encoded (d : DisplayState) : (s.withDs d).encoded = s.encoded := rfl
@[simp] theorem withDs_trace (d : DisplayState) : (s.withDs d).trace = s.trace := rfl
@[simp] theorem withDs_outputs (d : DisplayState) : (s.withDs d).outputs = s.outputs := rfl
@[simp] theorem withDs_panel (d : DisplayState) : (s.withDs d).panel = s.panel := rfl
@[simp] theorem withDs_requests (d : DisplayState) : (s.withDs d).requests = s.requests := rfl
@[simp] theorem withDs_innerCall (d : DisplayState) : (s.withDs d).innerCall = s.innerCall := rfl
@[simp] theorem withDs_sinkAnswers (d : DisplayState) : (s.withDs d).sinkAnswers = s.sinkAnswers := rfl
@[simp] theorem withDs_ticks (d : DisplayState) : (s.withDs d).ticks = s.ticks := rfl

/-! ### answer -/

@[simp] theorem answer_cfg (r : HostResult) : (s.answer r).cfg = s.cfg := rfl
@[simp] theorem answer_session (r : HostResult) : (s.answer r).session = s.session := rfl
@[simp] theorem answer_rows (r : HostResult) : (s.answer r).rows = s.rows := rfl
@[simp] theorem answer_columns (r : HostResult) : (s.answer r).columns = s.columns := rfl
@[simp] theorem answer_ds (r : HostResult) : (s.answer r).ds = s.ds := rfl
@[simp] theorem answer_xfault (r : HostResult) : (s.answer r).xfault = s.xfault := rfl
@[simp] theorem answer_result (r : HostResult) : (s.answer r).result = some r := rfl
@[simp] theorem answer_encoded (r : HostResult) : (s.answer r).encoded = s.encoded := rfl
@[simp] theorem answer_trace (r : HostResult) : (s.answer r).trace = s.trace := rfl
@[simp] theorem answer_outputs (r : HostResult) : (s.answer r).outputs = s.outputs := rfl
@[simp] theorem answer_panel (r : HostResult) : (s.answer r).panel = s.panel := rfl
@[simp] theorem answer_requests (r : HostResult) : (s.answer r).requests = s.requests := rfl
@[simp] theorem answer_innerCall (r : HostResult) : (s.answer r).innerCall = s.innerCall := rfl
@[simp] theorem answer_sinkAnswers (r : HostResult) : (s.answer r).sinkAnswers = s.sinkAnswers := rfl
@[simp] theorem answer_ticks (r : HostResult) : (s.answer r).ticks = s.ticks := rfl

/-! ### raiseError -/

@[simp] theorem raiseError_cfg (r : HostResult) : (s.raiseError r).cfg = s.cfg := rfl
@[simp] theorem raiseError_session (r : HostResult) : (s.raiseError r).session = s.session := rfl
@[simp] theorem raiseError_rows (r : HostResult) : (s.raiseError r).rows = s.rows := rfl
@[simp] theorem raiseError_columns (r : HostResult) : (s.raiseError r).columns = s.columns := rfl
@[simp] theorem raiseError_ds (r : HostResult) : (s.raiseError r).ds = s.ds := rfl
@[simp] theorem raiseError_xfault (r : HostResult) : (s.raiseError r).xfault = s.xfault := rfl
@[simp] theorem raiseError_result (r : HostResult) : (s.raiseError r).result = some r := rfl
@[simp] theorem raiseError_encoded (r : HostResult) : (s.raiseError r).encoded = s.encoded := rfl
@[simp] theorem raiseError_trace (r : HostResult) : (s.raiseError r).trace = s.trace := rfl
@[simp] theorem raiseError_outputs (r : HostResult) : (s.raiseError r).outputs = s.outputs := rfl
@[simp] theorem raiseError_panel (r : HostResult) : (s.raiseError r).panel = s.panel := rfl
@[simp] theorem raiseError_requests (r : HostResult) : (s.raiseError r).requests = s.requests := rfl
@[simp] theorem raiseError_innerCall (r : HostResult) : (s.raiseError r).innerCall = s.innerCall := rfl
@[simp] theorem raiseError_sinkAnswers (r : HostResult) : (s.raiseError r).sinkAnswers = s.sinkAnswers := rfl
@[simp] theorem raiseError_ticks (r : HostResult) : (s.raiseError r).ticks = s.ticks := rfl

/-! ### returnOk -/

@[simp] theorem returnOk_cfg : (s.returnOk).cfg = s.cfg := rfl
@[simp] theorem returnOk_session : (s.returnOk).session = s.session := rfl
@[simp] theorem returnOk_rows : (s.returnOk).rows = s.rows := rfl
@[simp] theorem returnOk_columns : (s.returnOk).columns = s.columns := rfl
@[simp] theorem returnOk_ds : (s.returnOk).ds = s.ds := rfl
@[simp] theorem returnOk_xfault : (s.returnOk).xfault = s.xfault := rfl
@[simp] theorem returnOk_result : (s.returnOk).result = some .ok := rfl
@[simp] theorem returnOk_encoded : (s.returnOk).encoded = s.encoded := rfl
@[simp] theorem returnOk_trace : (s.returnOk).trace = s.trace := rfl
@[simp] theorem returnOk_outputs : (s.returnOk).outputs = s.outputs := rfl
@[simp] theorem returnOk_panel : (s.returnOk).panel = s.panel := rfl
@[simp] theorem returnOk_requests : (s.returnOk).requests = s.requests := rfl
@[simp] theorem returnOk_innerCall : (s.returnOk).innerCall = s.innerCall := rfl
@[simp] theorem returnOk_sinkAnswers : (s.returnOk).sinkAnswers = s.sinkAnswers := rfl
@[simp] theorem returnOk_ticks : (s.returnOk).ticks = s.ticks := rfl

/-! ### encoderReturns -/

@[simp] theorem encoderReturns_cfg (b : Byte) : (s.encoderReturns b).cfg = s.cfg := rfl
@[simp] theorem encoderReturns_session (b : Byte) : (s.encoderReturns b).session = s.session := rfl
@[simp] theorem encoderReturns_rows (b : Byte) : (s.encoderReturns b).rows = s.rows := rfl
@[simp] theorem encoderReturns_columns (b : Byte) : (s.encoderReturns b).columns = s.columns := rfl
@[simp] theorem encoderReturns_ds (b : Byte) : (s.encoderReturns b).ds = s.ds := rfl
@[simp] theorem encoderReturns_xfault (b : Byte) : (s.encoderReturns b).xfault = s.xfault := rfl
@[simp] theorem encoderReturns_result (b : Byte) : (s.encoderReturns b).result = s.result := rfl
@[simp] theorem encoderReturns_encoded (b : Byte) : (s.encoderReturns b).encoded = some b := rfl
@[simp] theorem encoderReturns_trace (b : Byte) : (s.encoderReturns b).trace = s.trace := rfl
@[simp] theorem encoderReturns_outputs (b : Byte) : (s.encoderReturns b).outputs = s.outputs := rfl
@[simp] theorem encoderReturns_panel (b : Byte) : (s.encoderReturns b).panel = s.panel := rfl
@[simp] theorem encoderReturns_requests (b : Byte) : (s.encoderReturns b).requests = s.requests := rfl
@[simp] theorem encoderReturns_innerCall (b : Byte) : (s.encoderReturns b).innerCall = s.innerCall := rfl
@[simp] theorem encoderReturns_sinkAnswers (b : Byte) : (s.encoderReturns b).sinkAnswers = s.sinkAnswers := rfl
@[simp] theorem encoderReturns_ticks (b : Byte) : (s.encoderReturns b).ticks = s.ticks := rfl

/-! ### writeOk -/

@[simp] theorem writeOk_cfg (b : Byte) : (s.writeOk b).cfg = s.cfg := rfl
@[simp] theorem writeOk_session (b : Byte) : (s.writeOk b).session = s.session := rfl
@[simp] theorem writeOk_rows (b : Byte) : (s.writeOk b).rows = s.rows := rfl
@[simp] theorem writeOk_columns (b : Byte) : (s.writeOk b).columns = s.columns := rfl
@[simp] theorem writeOk_ds (b : Byte) : (s.writeOk b).ds = s.ds := rfl
@[simp] theorem writeOk_xfault (b : Byte) : (s.writeOk b).xfault = s.xfault := rfl
@[simp] theorem writeOk_result (b : Byte) : (s.writeOk b).result = s.result := rfl
@[simp] theorem writeOk_encoded (b : Byte) : (s.writeOk b).encoded = s.encoded := rfl
@[simp] theorem writeOk_trace (b : Byte) : (s.writeOk b).trace = s.trace ++ [.write b true] := rfl
@[simp] theorem writeOk_outputs (b : Byte) : (s.writeOk b).outputs = b := rfl
@[simp] theorem writeOk_panel (b : Byte) : (s.writeOk b).panel = s.panel.outputsChange s.cfg s.ticks s.outputs b := rfl
@[simp] theorem writeOk_requests (b : Byte) : (s.writeOk b).requests = s.requests := rfl
@[simp] theorem writeOk_innerCall (b : Byte) : (s.writeOk b).innerCall = s.innerCall := rfl
@[simp] theorem writeOk_sinkAnswers (b : Byte) : (s.writeOk b).sinkAnswers = s.sinkAnswers.tail := rfl
@[simp] theorem writeOk_ticks (b : Byte) : (s.writeOk b).ticks = s.ticks + 1 := rfl

/-! ### writeFailed -/

@[simp] theorem writeFailed_cfg (b : Byte) : (s.writeFailed b).cfg = s.cfg := rfl
@[simp] theorem writeFailed_session (b : Byte) : (s.writeFailed b).session = s.session := rfl
@[simp] theorem writeFailed_rows (b : Byte) : (s.writeFailed b).rows = s.rows := rfl
@[simp] theorem writeFailed_columns (b : Byte) : (s.writeFailed b).columns = s.columns := rfl
@[simp] theorem writeFailed_ds (b : Byte) : (s.writeFailed b).ds = s.ds := rfl
@[simp] theorem writeFailed_xfault (b : Byte) : (s.writeFailed b).xfault = true := rfl
@[simp] theorem writeFailed_result (b : Byte) : (s.writeFailed b).result = s.result := rfl
@[simp] theorem writeFailed_encoded (b : Byte) : (s.writeFailed b).encoded = s.encoded := rfl
@[simp] theorem writeFailed_trace (b : Byte) : (s.writeFailed b).trace = s.trace ++ [.write b false] := rfl
@[simp] theorem writeFailed_outputs (b : Byte) : (s.writeFailed b).outputs = Config.failedOutputs s.ticks := rfl
@[simp] theorem writeFailed_panel (b : Byte) : (s.writeFailed b).panel = Panel.unknown s.ticks := rfl
@[simp] theorem writeFailed_requests (b : Byte) : (s.writeFailed b).requests = s.requests := rfl
@[simp] theorem writeFailed_innerCall (b : Byte) : (s.writeFailed b).innerCall = s.innerCall := rfl
@[simp] theorem writeFailed_sinkAnswers (b : Byte) : (s.writeFailed b).sinkAnswers = s.sinkAnswers.tail := rfl
@[simp] theorem writeFailed_ticks (b : Byte) : (s.writeFailed b).ticks = s.ticks + 1 := rfl

/-! ### release -/

@[simp] theorem release_cfg : (s.release).cfg = s.cfg := rfl
@[simp] theorem release_session : (s.release).session = s.session := rfl
@[simp] theorem release_rows : (s.release).rows = s.rows := rfl
@[simp] theorem release_columns : (s.release).columns = s.columns := rfl
@[simp] theorem release_ds : (s.release).ds = s.ds := rfl
@[simp] theorem release_xfault : (s.release).xfault = s.xfault := rfl
@[simp] theorem release_result : (s.release).result = s.result := rfl
@[simp] theorem release_encoded : (s.release).encoded = s.encoded := rfl
@[simp] theorem release_trace : (s.release).trace = s.trace ++ [.release] := rfl
@[simp] theorem release_outputs : (s.release).outputs = s.outputs := rfl
@[simp] theorem release_panel : (s.release).panel = s.panel := rfl
@[simp] theorem release_requests : (s.release).requests = s.requests := rfl
@[simp] theorem release_innerCall : (s.release).innerCall = s.innerCall := rfl
@[simp] theorem release_sinkAnswers : (s.release).sinkAnswers = s.sinkAnswers := rfl
@[simp] theorem release_ticks : (s.release).ticks = s.ticks := rfl

/-! ### closeSession -/

@[simp] theorem closeSession_cfg : (s.closeSession).cfg = s.cfg := rfl
@[simp] theorem closeSession_session : (s.closeSession).session = .closed := rfl
@[simp] theorem closeSession_rows : (s.closeSession).rows = s.rows := rfl
@[simp] theorem closeSession_columns : (s.closeSession).columns = s.columns := rfl
@[simp] theorem closeSession_ds : (s.closeSession).ds = s.ds := rfl
@[simp] theorem closeSession_xfault : (s.closeSession).xfault = s.xfault := rfl
@[simp] theorem closeSession_result : (s.closeSession).result = s.result := rfl
@[simp] theorem closeSession_encoded : (s.closeSession).encoded = s.encoded := rfl
@[simp] theorem closeSession_trace : (s.closeSession).trace = s.trace ++ [.release] := rfl
@[simp] theorem closeSession_outputs : (s.closeSession).outputs = s.outputs := rfl
@[simp] theorem closeSession_panel : (s.closeSession).panel = s.panel := rfl
@[simp] theorem closeSession_requests : (s.closeSession).requests = s.requests := rfl
@[simp] theorem closeSession_innerCall : (s.closeSession).innerCall = s.innerCall := rfl
@[simp] theorem closeSession_sinkAnswers : (s.closeSession).sinkAnswers = s.sinkAnswers := rfl
@[simp] theorem closeSession_ticks : (s.closeSession).ticks = s.ticks := rfl

/-! ### setBacklightOn -/

@[simp] theorem setBacklightOn_cfg (on : Bool) : (s.setBacklightOn on).cfg = s.cfg := rfl
@[simp] theorem setBacklightOn_session (on : Bool) : (s.setBacklightOn on).session = s.session := rfl
@[simp] theorem setBacklightOn_rows (on : Bool) : (s.setBacklightOn on).rows = s.rows := rfl
@[simp] theorem setBacklightOn_columns (on : Bool) : (s.setBacklightOn on).columns = s.columns := rfl
@[simp] theorem setBacklightOn_ds (on : Bool) : (s.setBacklightOn on).ds = { s.ds with backlightOn := on } := rfl
@[simp] theorem setBacklightOn_xfault (on : Bool) : (s.setBacklightOn on).xfault = s.xfault := rfl
@[simp] theorem setBacklightOn_result (on : Bool) : (s.setBacklightOn on).result = s.result := rfl
@[simp] theorem setBacklightOn_encoded (on : Bool) : (s.setBacklightOn on).encoded = s.encoded := rfl
@[simp] theorem setBacklightOn_trace (on : Bool) : (s.setBacklightOn on).trace = s.trace := rfl
@[simp] theorem setBacklightOn_outputs (on : Bool) : (s.setBacklightOn on).outputs = s.outputs := rfl
@[simp] theorem setBacklightOn_panel (on : Bool) : (s.setBacklightOn on).panel = s.panel := rfl
@[simp] theorem setBacklightOn_requests (on : Bool) : (s.setBacklightOn on).requests = s.requests := rfl
@[simp] theorem setBacklightOn_innerCall (on : Bool) : (s.setBacklightOn on).innerCall = s.innerCall := rfl
@[simp] theorem setBacklightOn_sinkAnswers (on : Bool) : (s.setBacklightOn on).sinkAnswers = s.sinkAnswers := rfl
@[simp] theorem setBacklightOn_ticks (on : Bool) : (s.setBacklightOn on).ticks = s.ticks := rfl

/-! ### setDisplayOn -/

@[simp] theorem setDisplayOn_cfg (on : Bool) : (s.setDisplayOn on).cfg = s.cfg := rfl
@[simp] theorem setDisplayOn_session (on : Bool) : (s.setDisplayOn on).session = s.session := rfl
@[simp] theorem setDisplayOn_rows (on : Bool) : (s.setDisplayOn on).rows = s.rows := rfl
@[simp] theorem setDisplayOn_columns (on : Bool) : (s.setDisplayOn on).columns = s.columns := rfl
@[simp] theorem setDisplayOn_ds (on : Bool) : (s.setDisplayOn on).ds = { s.ds with displayOn := on } := rfl
@[simp] theorem setDisplayOn_xfault (on : Bool) : (s.setDisplayOn on).xfault = s.xfault := rfl
@[simp] theorem setDisplayOn_result (on : Bool) : (s.setDisplayOn on).result = s.result := rfl
@[simp] theorem setDisplayOn_encoded (on : Bool) : (s.setDisplayOn on).encoded = s.encoded := rfl
@[simp] theorem setDisplayOn_trace (on : Bool) : (s.setDisplayOn on).trace = s.trace := rfl
@[simp] theorem setDisplayOn_outputs (on : Bool) : (s.setDisplayOn on).outputs = s.outputs := rfl
@[simp] theorem setDisplayOn_panel (on : Bool) : (s.setDisplayOn on).panel = s.panel := rfl
@[simp] theorem setDisplayOn_requests (on : Bool) : (s.setDisplayOn on).requests = s.requests := rfl
@[simp] theorem setDisplayOn_innerCall (on : Bool) : (s.setDisplayOn on).innerCall = s.innerCall := rfl
@[simp] theorem setDisplayOn_sinkAnswers (on : Bool) : (s.setDisplayOn on).sinkAnswers = s.sinkAnswers := rfl
@[simp] theorem setDisplayOn_ticks (on : Bool) : (s.setDisplayOn on).ticks = s.ticks := rfl

/-! ### setCursorVisible -/

@[simp] theorem setCursorVisible_cfg (on : Bool) : (s.setCursorVisible on).cfg = s.cfg := rfl
@[simp] theorem setCursorVisible_session (on : Bool) : (s.setCursorVisible on).session = s.session := rfl
@[simp] theorem setCursorVisible_rows (on : Bool) : (s.setCursorVisible on).rows = s.rows := rfl
@[simp] theorem setCursorVisible_columns (on : Bool) : (s.setCursorVisible on).columns = s.columns := rfl
@[simp] theorem setCursorVisible_ds (on : Bool) : (s.setCursorVisible on).ds = { s.ds with cursorVisible := on } := rfl
@[simp] theorem setCursorVisible_xfault (on : Bool) : (s.setCursorVisible on).xfault = s.xfault := rfl
@[simp] theorem setCursorVisible_result (on : Bool) : (s.setCursorVisible on).result = s.result := rfl
@[simp] theorem setCursorVisible_encoded (on : Bool) : (s.setCursorVisible on).encoded = s.encoded := rfl
@[simp] theorem setCursorVisible_trace (on : Bool) : (s.setCursorVisible on).trace = s.trace := rfl
@[simp] theorem setCursorVisible_outputs (on : Bool) : (s.setCursorVisible on).outputs = s.outputs := rfl
@[simp] theorem setCursorVisible_panel (on : Bool) : (s.setCursorVisible on).panel = s.panel := rfl
@[simp] theorem setCursorVisible_requests (on : Bool) : (s.setCursorVisible on).requests = s.requests := rfl
@[simp] theorem setCursorVisible_innerCall (on : Bool) : (s.setCursorVisible on).innerCall = s.innerCall := rfl
@[simp] theorem setCursorVisible_sinkAnswers (on : Bool) : (s.setCursorVisible on).sinkAnswers = s.sinkAnswers := rfl
@[simp] theorem setCursorVisible_ticks (on : Bool) : (s.setCursorVisible on).ticks = s.ticks := rfl

/-! ### setCursorBlinking -/

@[simp] theorem setCursorBlinking_cfg (on : Bool) : (s.setCursorBlinking on).cfg = s.cfg := rfl
@[simp] theorem setCursorBlinking_session (on : Bool) : (s.setCursorBlinking on).session = s.session := rfl
@[simp] theorem setCursorBlinking_rows (on : Bool) : (s.setCursorBlinking on).rows = s.rows := rfl
@[simp] theorem setCursorBlinking_columns (on : Bool) : (s.setCursorBlinking on).columns = s.columns := rfl
@[simp] theorem setCursorBlinking_ds (on : Bool) : (s.setCursorBlinking on).ds = { s.ds with cursorBlinking := on } := rfl
@[simp] theorem setCursorBlinking_xfault (on : Bool) : (s.setCursorBlinking on).xfault = s.xfault := rfl
@[simp] theorem setCursorBlinking_result (on : Bool) : (s.setCursorBlinking on).result = s.result := rfl
@[simp] theorem setCursorBlinking_encoded (on : Bool) : (s.setCursorBlinking on).encoded = s.encoded := rfl
@[simp] theorem setCursorBlinking_trace (on : Bool) : (s.setCursorBlinking on).trace = s.trace := rfl
@[simp] theorem setCursorBlinking_outputs (on : Bool) : (s.setCursorBlinking on).outputs = s.outputs := rfl
@[simp] theorem setCursorBlinking_panel (on : Bool) : (s.setCursorBlinking on).panel = s.panel := rfl
@[simp] theorem setCursorBlinking_requests (on : Bool) : (s.setCursorBlinking on).requests = s.requests := rfl
@[simp] theorem setCursorBlinking_innerCall (on : Bool) : (s.setCursorBlinking on).innerCall = s.innerCall := rfl
@[simp] theorem setCursorBlinking_sinkAnswers (on : Bool) : (s.setCursorBlinking on).sinkAnswers = s.sinkAnswers := rfl
@[simp] theorem setCursorBlinking_ticks (on : Bool) : (s.setCursorBlinking on).ticks = s.ticks := rfl

/-! ### setEntryFlags -/

@[simp] theorem setEntryFlags_cfg (l a : Bool) : (s.setEntryFlags l a).cfg = s.cfg := rfl
@[simp] theorem setEntryFlags_session (l a : Bool) : (s.setEntryFlags l a).session = s.session := rfl
@[simp] theorem setEntryFlags_rows (l a : Bool) : (s.setEntryFlags l a).rows = s.rows := rfl
@[simp] theorem setEntryFlags_columns (l a : Bool) : (s.setEntryFlags l a).columns = s.columns := rfl
@[simp] theorem setEntryFlags_ds (l a : Bool) : (s.setEntryFlags l a).ds = { s.ds with entryLeftToRight := l, autoscrollOn := a } := rfl
@[simp] theorem setEntryFlags_xfault (l a : Bool) : (s.setEntryFlags l a).xfault = s.xfault := rfl
@[simp] theorem setEntryFlags_result (l a : Bool) : (s.setEntryFlags l a).result = s.result := rfl
@[simp] theorem setEntryFlags_encoded (l a : Bool) : (s.setEntryFlags l a).encoded = s.encoded := rfl
@[simp] theorem setEntryFlags_trace (l a : Bool) : (s.setEntryFlags l a).trace = s.trace := rfl
@[simp] theorem setEntryFlags_outputs (l a : Bool) : (s.setEntryFlags l a).outputs = s.outputs := rfl
@[simp] theorem setEntryFlags_panel (l a : Bool) : (s.setEntryFlags l a).panel = s.panel := rfl
@[simp] theorem setEntryFlags_requests (l a : Bool) : (s.setEntryFlags l a).requests = s.requests := rfl
@[simp] theorem setEntryFlags_innerCall (l a : Bool) : (s.setEntryFlags l a).innerCall = s.innerCall := rfl
@[simp] theorem setEntryFlags_sinkAnswers (l a : Bool) : (s.setEntryFlags l a).sinkAnswers = s.sinkAnswers := rfl
@[simp] theorem setEntryFlags_ticks (l a : Bool) : (s.setEntryFlags l a).ticks = s.ticks := rfl

@[simp] theorem construct_cfg (r c : Nat) : (s.construct r c).cfg = s.cfg := by
  cases h : s.session <;> simp [State.construct, State.connect, h]
@[simp] theorem construct_result (r c : Nat) : (s.construct r c).result = s.result := by
  cases h : s.session <;> simp [State.construct, State.connect, h]
@[simp] theorem construct_encoded (r c : Nat) : (s.construct r c).encoded = s.encoded := by
  cases h : s.session <;> simp [State.construct, State.connect, h]
@[simp] theorem construct_trace (r c : Nat) : (s.construct r c).trace = s.trace := by
  cases h : s.session <;> simp [State.construct, State.connect, h]
@[simp] theorem construct_requests (r c : Nat) : (s.construct r c).requests = s.requests := by
  cases h : s.session <;> simp [State.construct, State.connect, h]
@[simp] theorem construct_innerCall (r c : Nat) : (s.construct r c).innerCall = s.innerCall := by
  cases h : s.session <;> simp [State.construct, State.connect, h]
@[simp] theorem construct_sinkAnswers (r c : Nat) : (s.construct r c).sinkAnswers = s.sinkAnswers := by
  cases h : s.session <;> simp [State.construct, State.connect, h]
@[simp] theorem construct_session (r c : Nat) : (s.construct r c).session = .opened := rfl
@[simp] theorem construct_rows (r c : Nat) : (s.construct r c).rows = r := rfl
@[simp] theorem construct_columns (r c : Nat) : (s.construct r c).columns = c := rfl
@[simp] theorem construct_xfault (r c : Nat) : (s.construct r c).xfault = false := rfl
@[simp] theorem construct_ds (r c : Nat) : (s.construct r c).ds = DisplayState.initial := rfl

end Sys2Proof.Machine
end

