-- ==== Sys2Proof/Laws/Ops.lean ====
section
/-! SUPPORT. Once and for all what running an event list does, so that no proof about an operation unfolds `perform`. -/

namespace Sys2Proof.Machine

/-! ## Composition -/

@[simp] theorem andThen_ok (s : State) (f : State → Traffic) : Traffic.andThen { ok := true, state := s } f = f s := rfl

@[simp] theorem andThen_failed (s : State) (f : State → Traffic) :
    Traffic.andThen { ok := false, state := s } f = { ok := false, state := s } := rfl

theorem perform_append (a b : List Act) (s : State) : perform (a ++ b) s = (perform a s).andThen (perform b) := by
  induction a generalizing s with
  | nil => rfl
  | cons x rest ih =>
    cases x with
    | wait ns => exact ih _
    | write c =>
      simp only [List.cons_append, perform]
      split
      · exact ih _
      · rfl

theorem countWrites_append (a b : List Act) : countWrites (a ++ b) = countWrites a + countWrites b := by
  induction a with
  | nil => simp [countWrites]
  | cons x rest ih => cases x <;> simp [countWrites, ih, Nat.add_right_comm]

/-! ## What an event list leaves alone -/

/-- The parts of the state no sink write and no wait touches. -/
structure Untouched (s t : State) : Prop where
  cfg      : t.cfg = s.cfg
  session  : t.session = s.session
  rows     : t.rows = s.rows
  columns  : t.columns = s.columns
  ds       : t.ds = s.ds
  result   : t.result = s.result
  encoded  : t.encoded = s.encoded
  requests : t.requests = s.requests
  innerCall : t.innerCall = s.innerCall

theorem Untouched.refl (s : State) : Untouched s s := ⟨rfl, rfl, rfl, rfl, rfl, rfl, rfl, rfl, rfl⟩

theorem Untouched.trans {s t u : State} (h : Untouched s t) (k : Untouched t u) : Untouched s u :=
  ⟨k.cfg.trans h.cfg, k.session.trans h.session, k.rows.trans h.rows, k.columns.trans h.columns, k.ds.trans h.ds,
    k.result.trans h.result, k.encoded.trans h.encoded, k.requests.trans h.requests,
    k.innerCall.trans h.innerCall⟩

/-- Induction over an event list: a property of the state kept by a wait, by a write answered Ok and by a failed write is
kept by the list. -/
theorem perform_induction {P : State → Prop} (hw : ∀ s ns, P s → P (s.emit (.wait ns)))
    (hok : ∀ s b, P s → P (s.writeOk b)) (hf : ∀ s b, P s → P (s.writeFailed b)) (acts : List Act) (s : State) (h : P s) :
    P (perform acts s).state := by
  induction acts generalizing s with
  | nil => exact h
  | cons x rest ih =>
    cases x with
    | wait ns => exact ih _ (hw s ns h)
    | write b =>
      simp only [perform]
      split
      · exact ih _ (hok s b h)
      · exact hf s b h

theorem perform_untouched (acts : List Act) (s : State) : Untouched s (perform acts s).state :=
  perform_induction (P := Untouched s) (fun _ _ h => h.trans ⟨rfl, rfl, rfl, rfl, rfl, rfl, rfl, rfl, rfl⟩)
    (fun _ _ h => h.trans ⟨rfl, rfl, rfl, rfl, rfl, rfl, rfl, rfl, rfl⟩)
    (fun _ _ h => h.trans ⟨rfl, rfl, rfl, rfl, rfl, rfl, rfl, rfl, rfl⟩) acts s (.refl s)

theorem perform_memoryWf (acts : List Act) (s : State) (h : s.panel.memoryWf = true) :
    (perform acts s).state.panel.memoryWf = true :=
  perform_induction (P := fun s => s.panel.memoryWf = true) (fun _ _ h => h)
    (fun s b h => Panel.outputsChange_memoryWf h s.cfg s.ticks s.outputs b) (fun s _ _ => Panel.unknown_memoryWf s.ticks)
    acts s h

theorem perform_trace_extends (acts : List Act) (s : State) : s.trace <+: (perform acts s).state.trace :=
  perform_induction (P := fun t => s.trace <+: t.trace) (fun t _ h => h.trans (List.prefix_append t.trace _))
    (fun t _ h => h.trans (List.prefix_append t.trace _)) (fun t _ h => h.trans (List.prefix_append t.trace _)) acts s
    (List.prefix_refl _)

/-- XFAULT after an event list: set exactly by a failed write (R24). -/
theorem perform_xfault (acts : List Act) (s : State) :
    (perform acts s).state.xfault = (s.xfault || !(perform acts s).ok) := by
  induction acts generalizing s with
  | nil => simp [perform]
  | cons x rest ih =>
    cases x with
    | wait ns => simpa [perform] using ih (s.emit (.wait ns))
    | write b =>
      simp only [perform]
      split
      · simpa using ih (s.writeOk b)
      · simp

/-! ## An event list for given answers -/

theorem nextWriteOk_of_answers {s : State} {a : Bool} {answers : List Bool} {rest : List SinkAnswer}
    (h : AnswersAre s (a :: answers) rest) : s.nextWriteOk = a := by
  unfold AnswersAre at h
  cases a <;> simp [State.nextWriteOk, h, SinkAnswer.ofBool]

theorem stallsWithin_answers (answers : List Bool) (rest : List SinkAnswer) :
    stallsWithin answers.length (answers.map SinkAnswer.ofBool ++ rest) = false := by
  induction answers with
  | nil => simp [stallsWithin]
  | cons a as ih => cases a <;> simp [stallsWithin, SinkAnswer.ofBool, ih]

/-- What running an event list does, for given answers to all of its writes. -/
theorem perform_answers {acts : List Act} {s : State} {answers : List Bool} {rest : List SinkAnswer}
    (hn : answers.length = countWrites acts) (h : AnswersAre s answers rest) :
    (perform acts s).ok = answers.all id ∧ (perform acts s).state.trace = s.trace ++ cutTrace acts answers := by
  induction acts generalizing s answers with
  | nil =>
    obtain rfl : answers = [] := by simpa [countWrites] using hn
    simp [perform, cutTrace]
  | cons x tl ih =>
    cases x with
    | wait ns =>
      have := ih (s := s.emit (.wait ns)) hn h
      simpa [perform, cutTrace, List.append_assoc] using this
    | write b =>
      cases answers with
      | nil => simp [countWrites] at hn
      | cons a as =>
        rw [perform, nextWriteOk_of_answers h]
        cases a with
        | true =>
          have ha : AnswersAre (s.writeOk b) as rest := by
            unfold AnswersAre at h ⊢
            simp [h]
          have := ih (s := s.writeOk b) (by simpa [countWrites] using hn) ha
          simpa [cutTrace, List.append_assoc] using this
        | false => simp [cutTrace]

/-- After answers that are all Ok, the sink's remaining answers stand at `rest`. -/
theorem perform_sinkAnswers {acts : List Act} {s : State} {n : Nat} {rest : List SinkAnswer} (hn : n = countWrites acts)
    (h : AnswersAre s (List.replicate n true) rest) : (perform acts s).state.sinkAnswers = rest := by
  induction acts generalizing s n with
  | nil =>
    subst hn
    simpa [AnswersAre, countWrites, perform] using h
  | cons x tl ih =>
    cases x with
    | wait ns => exact ih (s := s.emit (.wait ns)) hn h
    | write b =>
      subst hn
      rw [countWrites, List.replicate_succ] at h
      rw [perform, nextWriteOk_of_answers h]
      refine ih (s := s.writeOk b) rfl ?_
      unfold AnswersAre at h ⊢
      simp [h]

/-- The report of a transmission, for given answers. -/
theorem report_answers {acts : List Act} {s : State} {answers : List Bool} {rest : List SinkAnswer}
    (hn : answers.length = countWrites acts) (h : AnswersAre s answers rest) :
    Transmitted s s.ds acts answers (perform acts s).report := by
  obtain ⟨hok, htr⟩ := perform_answers hn h
  have hu := perform_untouched acts s
  have hx := perform_xfault acts s
  rw [hok] at hx
  unfold Traffic.report
  cases hb : answers.all id
  · rw [hok, hb]
    exact ⟨htr, by simp [hb], by simpa [hb] using hx, hu.ds, hu.cfg, hu.session, hu.rows, hu.columns, hu.encoded, hu.requests,
      hu.innerCall⟩
  · rw [hok, hb]
    exact ⟨htr, by simp [hb], by simpa [hb] using hx, hu.ds, hu.cfg, hu.session, hu.rows, hu.columns, hu.encoded, hu.requests,
      hu.innerCall⟩

/-- A transmission whose writes are all answered completes, whatever the answers. -/
theorem transmit_answers {acts : List Act} {s : State} {answers : List Bool} {rest : List SinkAnswer}
    (hn : answers.length = countWrites acts) (h : AnswersAre s answers rest) :
    transmit s acts = .next (perform acts s).report := by
  have : stallsWithin (countWrites acts) s.sinkAnswers = false := by
    rw [← hn, show s.sinkAnswers = _ from h]
    exact stallsWithin_answers answers rest
  simp [transmit, unlessStalled, this]

/-! ## The outcomes of an operation -/

/-- Everything `transmit` can answer with a next state. -/
theorem transmit_next {s t : State} {acts : List Act} (h : transmit s acts = .next t) : t = (perform acts s).report := by
  unfold transmit unlessStalled at h
  split at h <;> simp_all

/-- Everything `runPlan` can answer with a next state. -/
theorem runPlan_next {s t : State} {plan : Plan} (h : runPlan s plan = .next t) :
    (∃ acts, plan = .go acts ∧ t = (perform acts s).report) ∨ (∃ e, plan = .raise e ∧ t = s.raiseError e) := by
  cases plan with
  | go acts => exact .inl ⟨acts, rfl, transmit_next h⟩
  | raise e => exact .inr ⟨e, rfl, by simpa [runPlan] using h.symm⟩
  | outsideEncoder => simp [runPlan] at h

/-- An operation that needs an open session and answers a next state ran in one. -/
theorem whenOpen_next {s t : State} {o : Host.Outcome State Fault Refusal} (h : whenOpen s o = .next t) :
    s.session = .opened ∧ o = .next t := by
  unfold whenOpen at h
  split at h <;> simp_all

@[simp] theorem whenOpen_opened {s : State} (o : Host.Outcome State Fault Refusal) (h : s.session = .opened) :
    whenOpen s o = o := by simp [whenOpen, h]

end Sys2Proof.Machine
end

