-- ==== Sys2Proof/Laws/PerInstr.lean ====
section
/-! SUPPORT. The family `EncodeTotal`: every well-formed instruction has a request, one lemma per constructor. -/

namespace Sys2Proof.Laws.EncodeTotal

/-- A well-formed instruction has a request, for every choice of the parameters. -/
def Statement (i : Instr) : Prop := ∀ p : Params, i.wf = true → (encode p i).isSome = true

theorem init (rows columns : Int) : Statement (.init rows columns) := fun _ _ => rfl
theorem close : Statement .close := fun _ _ => rfl
theorem setBacklight (on : Bool) : Statement (.setBacklight on) := fun _ _ => rfl
theorem setDisplay (on : Bool) : Statement (.setDisplay on) := fun _ _ => rfl
theorem setCursorVisible (on : Bool) : Statement (.setCursorVisible on) := fun _ _ => rfl
theorem setCursorBlinking (on : Bool) : Statement (.setCursorBlinking on) := fun _ _ => rfl
theorem setEntryMode (l a : Bool) : Statement (.setEntryMode l a) := fun _ _ => rfl
theorem clear : Statement .clear := fun _ _ => rfl
theorem home : Statement .home := fun _ _ => rfl
theorem shiftDisplay (right : Bool) : Statement (.shiftDisplay right) := fun _ _ => rfl
theorem shiftCursor (right : Bool) : Statement (.shiftCursor right) := fun _ _ => rfl
theorem setCursorPosition (column row : Int) : Statement (.setCursorPosition column row) := fun _ _ => rfl
theorem writeCharacter (code : Byte) : Statement (.writeCharacter code) := fun _ _ => rfl
theorem createCustomCharacter (location : Int) (bitmap : List Byte) :
    Statement (.createCustomCharacter location bitmap) := fun _ _ => rfl
theorem displayTextRow (text : List Byte) (row : Int) : Statement (.displayTextRow text row) := fun _ _ => rfl
theorem displayTextAt (text : List Byte) (row column : Int) : Statement (.displayTextAt text row column) := fun _ _ => rfl
theorem layoutText (text : List Byte) : Statement (.layoutText text) := fun _ _ => rfl
theorem clearDisplay : Statement .clearDisplay := fun _ _ => rfl
theorem returnHome : Statement .returnHome := fun _ _ => rfl
theorem entryModeSet (l a : Bool) : Statement (.entryModeSet l a) := fun _ _ => rfl
theorem displayControl (o c b : Bool) : Statement (.displayControl o c b) := fun _ _ => rfl
theorem cursorDisplayShift (m r : Bool) : Statement (.cursorDisplayShift m r) := fun _ _ => rfl
theorem functionSet (e t f : Bool) : Statement (.functionSet e t f) := fun _ _ => rfl
theorem setCgramAddr (location : Int) : Statement (.setCgramAddr location) := fun p h => by
  simp only [Instr.wf] at h
  simp [encode, h]
theorem setDdramAddr (offset : Int) : Statement (.setDdramAddr offset) := fun p h => by
  simp only [Instr.wf] at h
  simp [encode, h]
theorem send (value : Byte) (rs bl : Bool) : Statement (.send value rs bl) := fun _ _ => rfl
theorem blwrite (bl : Bool) : Statement (.blwrite bl) := fun _ _ => rfl

end Sys2Proof.Laws.EncodeTotal
end

