-- ==== Sys2Proof/Laws/Step.lean ====
section
/-! SUPPORT. What a step takes, and that no instruction touches the host's program or puts an inner call. -/

namespace Sys2Proof.Machine

/-! ## Taking a request -/

/-- The host port decodes to the operations of R70 only (R72). -/
theorem decodeHost_isHostOp {h : HostRecord} {i : Instr} (hd : decodeHost h = .ok i) : isHostOp i = true := by
  unfold decodeHost at hd
  split at hd <;> (try simp only [withFlag] at hd) <;> (repeat' split at hd) <;>
    simp only [Except.ok.injEq, reduceCtorEq] at hd <;> subst hd <;> rfl

/-- What is placed is what the next step takes, and nothing else of the state is touched. -/
@[simp] theorem takeRequest_place (s : State) (r : Request) : (s.place r).takeRequest = some (r, { s with innerCall := none }) := by
  cases r <;> rfl

/-- Everything `takeRequest` can give: an inner call put from outside, or the first request of the host's program. -/
theorem takeRequest_some {s t : State} {r : Request} (h : s.takeRequest = some (r, t)) :
    (∃ c, s.innerCall = some c ∧ r = .inner c ∧ t = { s with innerCall := none }) ∨
    (∃ q rest, s.innerCall = none ∧ s.requests = q :: rest ∧ r = .host q ∧ t = { s with requests := rest }) := by
  unfold State.takeRequest at h
  split at h
  · simp_all
  · split at h <;> simp_all

theorem takeRequest_none {s : State} (h : s.takeRequest = none) : s.innerCall = none ∧ s.requests = [] := by
  unfold State.takeRequest at h
  split at h
  · simp at h
  · split at h <;> simp_all

/-- Everything a step can answer with a next state: it waits, or executes what it took decodes to. -/
theorem step_next {s t : State} (h : step s = .next t) :
    (s.takeRequest = none ∧ t = s) ∨ ∃ r u i, s.takeRequest = some (r, u) ∧ decode s.cfg r = .ok i ∧ exec i u = .next t := by
  unfold step at h
  split at h
  · rename_i hn
    exact .inl ⟨hn, by simpa using h.symm⟩
  · rename_i r u hs
    split at h
    · rename_i i hd
      exact .inr ⟨r, u, i, hs, hd, h⟩
    · simp at h

/-! ## The host's program and the inner call -/

/-- The two inputs that say what the next steps are asked for. -/
structure SameRequests (s t : State) : Prop where
  requests  : t.requests = s.requests
  innerCall : t.innerCall = s.innerCall

theorem SameRequests.trans {s t u : State} (h : SameRequests s t) (k : SameRequests t u) : SameRequests s u :=
  ⟨k.requests.trans h.requests, k.innerCall.trans h.innerCall⟩

theorem perform_sameRequests (acts : List Act) (s : State) : SameRequests s (perform acts s).state :=
  ⟨(perform_untouched acts s).requests, (perform_untouched acts s).innerCall⟩

theorem report_sameRequests (t : Traffic) : SameRequests t.state t.report := by
  unfold Traffic.report
  split <;> exact ⟨rfl, rfl⟩

theorem andThen_sameRequests {s : State} {t : Traffic} {f : State → Traffic} (h : SameRequests s t.state)
    (hf : ∀ u, SameRequests u (f u).state) : SameRequests s (t.andThen f).state := by
  unfold Traffic.andThen
  split
  · exact h.trans (hf _)
  · exact h

theorem transmit_sameRequests {s t : State} {acts : List Act} (h : transmit s acts = .next t) : SameRequests s t :=
  transmit_next h ▸ (perform_sameRequests acts s).trans (report_sameRequests _)

theorem runPlan_sameRequests {s t : State} {plan : Plan} (h : runPlan s plan = .next t) : SameRequests s t := by
  obtain ⟨acts, -, rfl⟩ | ⟨e, -, rfl⟩ := runPlan_next h
  · exact (perform_sameRequests acts s).trans (report_sameRequests _)
  · exact ⟨rfl, rfl⟩

theorem unlessStalled_next {s t u : State} {n : Nat} (h : unlessStalled s n u = .next t) : t = u := by
  unfold unlessStalled at h
  split at h <;> simp_all

theorem partialEncoder_sameRequests {s t : State} {r : Option Byte} (h : partialEncoder s r = .next t) : SameRequests s t := by
  cases r <;> simp only [partialEncoder, Host.Outcome.next.injEq, reduceCtorEq] at h
  exact h ▸ ⟨rfl, rfl⟩

theorem execInit_sameRequests {rows columns : Int} {s t : State} (h : execInit rows columns s = .next t) :
    SameRequests s t := by
  unfold execInit at h
  split at h
  · rw [unlessStalled_next h]
    refine .trans ?_ (report_sameRequests _)
    have hc : SameRequests s (s.construct rows.toNat columns.toNat) := ⟨by simp, by simp⟩
    refine andThen_sameRequests (andThen_sameRequests (andThen_sameRequests (hc.trans ?_) ?_) ?_) ?_
    · exact perform_sameRequests _ _
    · exact fun u => .trans (t := u.setDisplayOn u.cfg.initDisplayOn) ⟨rfl, rfl⟩ (perform_sameRequests _ _)
    · exact fun u => .trans (t := u.setBacklightOn true) ⟨rfl, rfl⟩ (perform_sameRequests _ _)
    · exact fun u => ⟨rfl, rfl⟩
  · simp at h

theorem execClose_sameRequests {s t : State} (h : execClose s = .next t) : SameRequests s t := by
  unfold execClose at h
  split at h
  · obtain rfl : s.returnOk = t := by simpa using h
    exact ⟨rfl, rfl⟩
  · rw [unlessStalled_next h]
    refine .trans ?_ (report_sameRequests _)
    exact .trans (t := s.setDisplayOn false) ⟨rfl, rfl⟩ ((perform_sameRequests _ _).trans ⟨rfl, rfl⟩)
  · simp at h

/-- No instruction touches the host's program, nor puts or takes an inner call. -/
theorem exec_sameRequests {i : Instr} {s t : State} (h : exec i s = .next t) : SameRequests s t := by
  cases i
  case init rows columns => exact execInit_sameRequests h
  case close => exact execClose_sameRequests h
  case setBacklight on => exact .trans (t := s.setBacklightOn on) ⟨rfl, rfl⟩ (transmit_sameRequests (whenOpen_next h).2)
  case setDisplay on => exact .trans (t := s.setDisplayOn on) ⟨rfl, rfl⟩ (transmit_sameRequests (whenOpen_next h).2)
  case setCursorVisible on => exact .trans (t := s.setCursorVisible on) ⟨rfl, rfl⟩ (transmit_sameRequests (whenOpen_next h).2)
  case setCursorBlinking on => exact .trans (t := s.setCursorBlinking on) ⟨rfl, rfl⟩ (transmit_sameRequests (whenOpen_next h).2)
  case setEntryMode l a => exact .trans (t := s.setEntryFlags l a) ⟨rfl, rfl⟩ (transmit_sameRequests (whenOpen_next h).2)
  case clear => exact transmit_sameRequests (whenOpen_next h).2
  case home => exact transmit_sameRequests (whenOpen_next h).2
  case shiftDisplay right => exact transmit_sameRequests (whenOpen_next h).2
  case shiftCursor right => exact transmit_sameRequests (whenOpen_next h).2
  case setCursorPosition column row => exact runPlan_sameRequests (whenOpen_next h).2
  case writeCharacter code => exact transmit_sameRequests (whenOpen_next h).2
  case createCustomCharacter location bitmap => exact runPlan_sameRequests (whenOpen_next h).2
  case displayTextRow text row => exact runPlan_sameRequests (whenOpen_next h).2
  case displayTextAt text row column => exact runPlan_sameRequests (whenOpen_next h).2
  case layoutText text => exact runPlan_sameRequests (whenOpen_next h).2
  case send value rs bl => exact transmit_sameRequests (whenOpen_next h).2
  case blwrite bl => exact transmit_sameRequests (whenOpen_next h).2
  case setCgramAddr location => exact partialEncoder_sameRequests h
  case setDdramAddr offset => exact partialEncoder_sameRequests h
  all_goals
    injection h with h
    subst h
    exact ⟨rfl, rfl⟩

end Sys2Proof.Machine
end

