-- ==== Sys2Proof/Laws/Transport.lean ====
section
/-! SUPPORT. What a SEND answered Ok does to the backpack and the panel: one whole byte received. -/

namespace Sys2Proof.Machine

/-- An event list run with every write answered Ok. -/
def applyOk : List Act → State → State
  | [], s => s
  | .wait ns :: rest, s => applyOk rest (s.emit (.wait ns))
  | .write b :: rest, s => applyOk rest (s.writeOk b)

theorem applyOk_append (a b : List Act) (s : State) : applyOk (a ++ b) s = applyOk b (applyOk a s) := by
  induction a generalizing s with
  | nil => rfl
  | cons x rest ih => cases x <;> exact ih _

theorem perform_ok {acts : List Act} {s : State} (h : (perform acts s).ok = true) :
    perform acts s = { ok := true, state := applyOk acts s } := by
  induction acts generalizing s with
  | nil => rfl
  | cons x rest ih =>
    cases x with
    | wait ns => exact ih h
    | write b =>
      rw [perform] at h ⊢
      cases hw : s.nextWriteOk
      · rw [hw] at h
        simp at h
      · rw [hw] at h
        exact ih h

/-- A write that never answers does not answer Ok, so an event list with every write answered Ok needs as many Ok answers
as it has writes; conversely these suffice. -/
theorem perform_ok_of_OkFor {acts : List Act} {s : State} {n : Nat} (hn : countWrites acts ≤ n) (h : OkFor s n) :
    (perform acts s).ok = true := by
  induction acts generalizing s n with
  | nil => rfl
  | cons x rest ih =>
    cases x with
    | wait ns => exact ih (s := s.emit (.wait ns)) hn h
    | write b =>
      obtain ⟨more, hm⟩ := h
      obtain ⟨k, rfl⟩ : ∃ k, n = k + 1 := ⟨n - 1, by simp only [countWrites] at hn; omega⟩
      have hok : s.nextWriteOk = true := by simp [State.nextWriteOk, hm, List.replicate_succ]
      rw [perform, hok]
      exact ih (s := s.writeOk b) (n := k) (by simp only [countWrites] at hn; omega)
        ⟨more, by simp [hm, List.replicate_succ]⟩

/-- The answers left over after an event list. -/
theorem applyOk_sinkAnswers (acts : List Act) (s : State) :
    (applyOk acts s).sinkAnswers = s.sinkAnswers.drop (countWrites acts) := by
  induction acts generalizing s with
  | nil => rfl
  | cons x rest ih =>
    cases x with
    | wait ns => exact ih _
    | write b =>
      rw [applyOk, ih, countWrites, Nat.add_comm, ← List.drop_drop]
      simp

theorem OkFor_drop {s t : State} {n k : Nat} (h : OkFor s (n + k)) (ht : t.sinkAnswers = s.sinkAnswers.drop n) : OkFor t k := by
  obtain ⟨rest, hr⟩ := h
  refine ⟨rest, ?_⟩
  rw [ht, hr, List.replicate_add, List.append_assoc, List.drop_left' (by simp)]

theorem not_stalls_of_OkFor {s : State} {n k : Nat} (hk : k ≤ n) (h : OkFor s n) : stallsWithin k s.sinkAnswers = false := by
  obtain ⟨rest, hr⟩ := h
  rw [hr]
  clear hr
  induction k generalizing n with
  | zero => rfl
  | succ k ih =>
    obtain ⟨m, rfl⟩ : ∃ m, n = m + 1 := ⟨n - 1, by omega⟩
    simp only [List.replicate_succ, List.cons_append, stallsWithin]
    exact ih (n := m) (by omega)

/-- A transmission with enough Ok answers completes with Ok. -/
theorem transmit_ok {acts : List Act} {s : State} {n : Nat} (hn : countWrites acts ≤ n) (h : OkFor s n) :
    transmit s acts = .next (applyOk acts s).returnOk := by
  have hp := perform_ok (perform_ok_of_OkFor hn h)
  simp [transmit, unlessStalled, not_stalls_of_OkFor hn h, hp, Traffic.report]

theorem countWrites_nibble (p : Params) (n : Byte) (bl : Bool) : countWrites (nibbleActs p n bl) = 3 := rfl

@[simp] theorem countWrites_send (p : Params) (v : Byte) (rs bl : Bool) : countWrites (sendActs p v rs bl) = 6 := rfl

theorem applyOk_untouched (acts : List Act) (s : State) : Untouched s (applyOk acts s) := by
  induction acts generalizing s with
  | nil => exact .refl s
  | cons x rest ih =>
    cases x with
    | wait ns =>
      have h : Untouched s (s.emit (.wait ns)) := ⟨rfl, rfl, rfl, rfl, rfl, rfl, rfl, rfl, rfl⟩
      exact h.trans (ih _)
    | write b =>
      have h : Untouched s (s.writeOk b) := ⟨rfl, rfl, rfl, rfl, rfl, rfl, rfl, rfl, rfl⟩
      exact h.trans (ih _)

theorem applyOk_xfault (acts : List Act) (s : State) : (applyOk acts s).xfault = s.xfault := by
  induction acts generalizing s with
  | nil => rfl
  | cons x rest ih => cases x <;> exact ih _

/-- The three writes of one nibble, answered Ok with the enable line low before: one strobe, and the enable line low
after. -/
theorem applyOk_nibble {s : State} (h : Masks s.cfg) (he : enHigh s.cfg s.outputs = false) (data : Byte) (rs bl : Bool) :
    let t := applyOk (nibbleActs s.cfg (flagBit rs s.cfg.rsMask ||| (data &&& 0xF0#8)) bl) s
    t.panel = s.panel.strobe s.cfg (s.ticks + 2) (data.extractLsb' 4 4) rs ∧ t.outputs = idleByte s.cfg data rs bl ∧
      t.ticks = s.ticks + 3 ∧ enHigh s.cfg t.outputs = false := by
  have e1 : isStrobe s.cfg s.outputs (idleByte s.cfg data rs bl) = false := by simp [isStrobe, he]
  have e2 : isStrobe s.cfg (idleByte s.cfg data rs bl) (idleByte s.cfg data rs bl ||| s.cfg.enMask) = false := by
    simp [isStrobe, enHigh, idleByte_en h]
  have e3 : isStrobe s.cfg (idleByte s.cfg data rs bl ||| s.cfg.enMask) (idleByte s.cfg data rs bl) = true := by
    simp [isStrobe, enHigh, idleByte_en h, strobeByte_en h]
  have hi : flagBit rs s.cfg.rsMask ||| (data &&& 0xF0#8) ||| flagBit bl s.cfg.blMask = idleByte s.cfg data rs bl := rfl
  refine ⟨?_, rfl, rfl, idleByte_en h data rs bl⟩
  simp only [nibbleActs, hi, applyOk, writeOk_panel, writeOk_outputs, writeOk_cfg, writeOk_ticks, emit_panel, emit_outputs,
    emit_cfg, emit_ticks, Panel.outputsChange, e1, e2, e3, dataNibble_strobeByte h, strobeByte_rs h]
  rfl

/-- A SEND answered Ok, with the panel in phase: the panel receives exactly that byte (R92 (d), R48 (b)) and the enable line
is low. -/
theorem applyOk_send {s : State} (h : s.cfg.wf = true) (hp : InPhase s) (v : Byte) (rs bl : Bool) :
    let t := applyOk (sendActs s.cfg v rs bl) s
    t.panel = Panel.receiveByte s.cfg (s.ticks + 5) s.panel rs v ∧ t.ticks = s.ticks + 6 ∧
      enHigh s.cfg t.outputs = false := by
  have hm := masks_of_wf h
  obtain ⟨a1, -, a3, a4⟩ := applyOk_nibble hm hp.enable v rs bl
  have hu := applyOk_untouched (nibbleActs s.cfg (flagBit rs s.cfg.rsMask ||| (v &&& 0xF0#8)) bl) s
  have hc := hu.cfg
  have := applyOk_nibble (s := applyOk (nibbleActs s.cfg (flagBit rs s.cfg.rsMask ||| (v &&& 0xF0#8)) bl) s)
    (by rw [hc]; exact hm) (by rw [hc]; exact a4) (v <<< 4) rs bl
  rw [hc, a1, a3] at this
  obtain ⟨b1, -, b3, b4⟩ := this
  have hsplit : sendActs s.cfg v rs bl = nibbleActs s.cfg (flagBit rs s.cfg.rsMask ||| (v &&& 0xF0#8)) bl
      ++ nibbleActs s.cfg (flagBit rs s.cfg.rsMask ||| ((v <<< 4) &&& 0xF0#8)) bl := rfl
  rw [hsplit]
  simp only [applyOk_append]
  refine ⟨?_, b3, b4⟩
  rw [b1]
  have hw := hp.width
  have hph := hp.phase
  simp only [Panel.strobe, hw, hph, joinNibbles_halves]
  congr 1
  rw [← hw, ← hph]

end Sys2Proof.Machine
end

