-- ==== Sys2Proof/Tests/Slice0.lean ====
section
/-! SUPPORT. Tests: the well-formedness smoke, decoding of words written out from the spec, one step of each instruction
with expected bytes from 95_test_vectors.md, and one witness for the hypotheses of each obligation. -/

namespace Sys2Proof.Tests

open Sys2Proof.Machine

/-! ## Helpers -/

/-- The default parameters with INIT_DISPLAY_ON false, as the vectors of 95_test_vectors.md have them, and a panel whose
address goes up left to right. -/
def cfg0 : Params :=
  Params.ofOpen false
    { rightToLeft := false, rightToLeftScroll := false, leftToRight := true, leftToRightScroll := true }

/-- An open session in phase, the backlight on, every other flag as after construction, and the given sink answers. -/
def opened (rows columns : Nat) (answers : List SinkAnswer) : State :=
  { State.unbuilt with
    cfg := cfg0
    session := .opened
    rows := rows
    columns := columns
    ds := { DisplayState.initial with backlightOn := true }
    outputs := 0x08
    panel := Panel.initialised
    sinkAnswers := answers }

/-- An open 2 by 16 display whose sink answers Ok to the next `n` writes. -/
def ready (n : Nat) : State := opened 2 16 (List.replicate n .ok)

/-- The same with another DS. -/
def readyWith (n : Nat) (ds : DisplayState) : State := { ready n with ds := ds }

/-- The same with another address of the panel, told left-to-right or not. -/
def readyAt (n : Nat) (address : PanelAddr) (leftToRight : Bool) : State :=
  { ready n with
    panel := { Panel.initialised with address := address, entry := { leftToRight := leftToRight, autoscroll := false } } }

/-- The next state, where there is one. -/
def after (i : Instr) (s : State) : State :=
  match exec i s with
  | .next t => t
  | .fault _ => s
  | .refused _ => s

/-- What is written, with the answers, where there is a next state. -/
def written (o : Host.Outcome State Fault Refusal) : List (Byte × Bool) :=
  match o with
  | .next t => writesOf t.trace
  | .fault _ => []
  | .refused _ => []

/-- The bytes written, all answered Ok, and the result. -/
def answersOk (o : Host.Outcome State Fault Refusal) (bytes : List Byte) : Bool :=
  match o with
  | .next t => writesOf t.trace == bytes.map (fun b => (b, true)) && t.result == some .ok
  | .fault _ => false
  | .refused _ => false

/-- What the reference receiver reads, and the result. -/
def sentOk (o : Host.Outcome State Fault Refusal) (sends : List (Bool × Byte)) : Bool :=
  match o with
  | .next t => receive t.cfg t.trace == sends && t.result == some .ok
  | .fault _ => false
  | .refused _ => false

/-- The step only gives a result. -/
def onlyResult (s : State) (i : Instr) (r : HostResult) : Bool :=
  match exec i s with
  | .next t => t == { s with result := some r }
  | .fault _ => false
  | .refused _ => false

/-- The step only returns an encoder byte. -/
def returnsByte (i : Instr) (b : Byte) : Bool :=
  match exec i (ready 0) with
  | .next t => t == { ready 0 with encoded := some b }
  | .fault _ => false
  | .refused _ => false

/-! ## WellFormed smoke: one ill-formed term per check -/

theorem test_wf_cgram_low : (Instr.setCgramAddr (-1)).wf = false := by decide
theorem test_wf_cgram_high : (Instr.setCgramAddr 8).wf = false := by decide
theorem test_wf_ddram_low : (Instr.setDdramAddr (-1)).wf = false := by decide
theorem test_wf_ddram_high : (Instr.setDdramAddr 0x80).wf = false := by decide
theorem test_wf_mask_two_bits : ({ cfg0 with rsMask := 0x03 } : Params).wf = false := by decide
theorem test_wf_mask_in_data : ({ cfg0 with enMask := 0x10 } : Params).wf = false := by decide
theorem test_wf_masks_equal : ({ cfg0 with blMask := 0x04 } : Params).wf = false := by decide
theorem test_wf_flag_not_below_base : ({ cfg0 with fEntryDir := 0x04 } : Params).wf = false := by decide
theorem test_wf_flags_equal : ({ cfg0 with fDispCursor := 0x01 } : Params).wf = false := by decide
theorem test_wf_enable_time : ({ cfg0 with tEnHigh := 499 } : Params).wf = false := by decide
theorem test_wf_settle_time : ({ cfg0 with tSettle := 99 } : Params).wf = false := by decide
theorem test_wf_defaults : cfg0.wf = true := by decide

/-! ## Decoding words written out from 30_encoding.md R63, R66, R70 -/

theorem test_decode_entry_mode : decode cfg0 (.inner (.encoder 0b00000110)) = .ok (.entryModeSet true false) := by decide
theorem test_decode_display_control : decode cfg0 (.inner (.encoder 0b00001101)) = .ok (.displayControl true false true) := by decide
theorem test_decode_shift : decode cfg0 (.inner (.encoder 0b00011000)) = .ok (.cursorDisplayShift true false) := by decide
theorem test_decode_function_set : decode cfg0 (.inner (.encoder 0b00101000)) = .ok (.functionSet false true false) := by decide
theorem test_decode_cgram : decode cfg0 (.inner (.encoder 0b01110000)) = .ok (.setCgramAddr 6) := by decide
theorem test_decode_ddram : decode cfg0 (.inner (.encoder 0b10010100)) = .ok (.setDdramAddr 0x14) := by decide
theorem test_decode_clear_home :
    decode cfg0 (.inner (.encoder 0b00000001)) = .ok .clearDisplay ∧ decode cfg0 (.inner (.encoder 0b00000010)) = .ok .returnHome := by decide
theorem test_decode_reserved_commands :
    decode cfg0 (.inner (.encoder 0x00)) = .error (.noSuchCommand 0x00) ∧ decode cfg0 (.inner (.encoder 0x03)) = .error (.noSuchCommand 0x03) ∧
      decode cfg0 (.inner (.encoder 0x15)) = .error (.noSuchCommand 0x15) ∧ decode cfg0 (.inner (.encoder 0x29)) = .error (.noSuchCommand 0x29) ∧
      decode cfg0 (.inner (.encoder 0x41)) = .error (.noSuchCommand 0x41) := by decide
theorem test_decode_send :
    decode cfg0 (.inner (.transport [0x41, 0x45, 0x41, 0x11, 0x15, 0x11])) = .ok (.send 0x41 true false) := by decide
theorem test_decode_blwrite :
    decode cfg0 (.inner (.transport [0x08])) = .ok (.blwrite true) ∧ decode cfg0 (.inner (.transport [0x00])) = .ok (.blwrite false) := by decide
theorem test_decode_rw_refused : decode cfg0 (.inner (.transport [0x0A])) = .error .noSuchTraffic := by decide
theorem test_decode_host_position :
    decode cfg0 (.host { op := 0x30, a := 5, b := 1, data := [] }) = .ok (.setCursorPosition 5 1) := by decide
theorem test_decode_host_text :
    decode cfg0 (.host { op := 0x41, a := 1, b := 3, data := [0x4F] }) = .ok (.displayTextAt [0x4F] 1 3) := by decide
theorem test_decode_host_unknown :
    decode cfg0 (.host { op := 0x02, a := 0, b := 0, data := [] }) = .error (.unknownOp 0x02) := by decide
theorem test_decode_host_not_boolean :
    decode cfg0 (.host { op := 0x10, a := 2, b := 0, data := [] }) = .error (.notBoolean 2) := by decide
theorem test_decode_host_not_byte :
    decode cfg0 (.host { op := 0x31, a := 256, b := 0, data := [] }) = .error (.notByte 256) := by decide

/-- Words of the opcode table that one format alone gives a meaning (log 16). -/
theorem test_table_words :
    decodeTableWord 8 0x21 = some .home ∧ decodeTableWord 8 0x06 = some (.entryModeSet true false) ∧
    decodeTableWord 8 0x82 = some (.setDdramAddr 2) ∧ decodeTableWord 8 0x49 = some (.send 0x40 true true) ∧
    decodeTableWord 8 0x03 = none := ⟨rfl, rfl, rfl, rfl, rfl⟩
/-- The word placed where the step takes its next request is the one it runs, right after reset. -/
theorem test_fetch_word : step (State.reset.withFetchWord 8 0x21) = exec .home State.reset := rfl
theorem test_fetch_inner_word : step (State.reset.withFetchWord 8 0x05) = exec (.entryModeSet false true) State.reset := rfl

/-! ## One step of each instruction -/

/-- V20 to V27, one or two values each. -/
theorem test_encoder_clear_home : returnsByte .clearDisplay 0x01 ∧ returnsByte .returnHome 0x02 := by decide
theorem test_encoder_entry_mode : returnsByte (.entryModeSet true false) 0x06 ∧ returnsByte (.entryModeSet false true) 0x05 := by
  decide
theorem test_encoder_display_control :
    returnsByte (.displayControl true false false) 0x0C ∧ returnsByte (.displayControl false true false) 0x0A := by decide
theorem test_encoder_shift :
    returnsByte (.cursorDisplayShift false true) 0x14 ∧ returnsByte (.cursorDisplayShift true false) 0x18 := by decide
theorem test_encoder_function_set :
    returnsByte (.functionSet false true false) 0x28 ∧ returnsByte (.functionSet true false true) 0x34 := by decide
theorem test_encoder_cgram : returnsByte (.setCgramAddr 5) 0x68 := by decide
theorem test_encoder_ddram : returnsByte (.setDdramAddr 0x45) 0xC5 := by decide

/-- R90's worked example. -/
theorem test_send : answersOk (exec (.send 0x41 true true) (ready 6)) [0x49, 0x4D, 0x49, 0x19, 0x1D, 0x19] := by decide
/-- R91. -/
theorem test_blwrite : answersOk (exec (.blwrite true) (ready 1)) [0x08] ∧ answersOk (exec (.blwrite false) (ready 1)) [0x00] := by
  decide
/-- S6 (R121): one write a call. -/
theorem test_set_backlight : answersOk (exec (.setBacklight false) (ready 1)) [0x00] := by decide
/-- V33. -/
theorem test_set_display :
    answersOk (exec (.setDisplay true) (ready 6)) [0x08, 0x0C, 0x08, 0xC8, 0xCC, 0xC8] := by decide
/-- V30. -/
theorem test_set_cursor_visible :
    answersOk (exec (.setCursorVisible true) (readyWith 6 { (ready 6).ds with displayOn := true }))
      [0x08, 0x0C, 0x08, 0xE8, 0xEC, 0xE8] := by decide
/-- V52: the flag stays updated after a failed write. -/
theorem test_set_cursor_visible_fails :
    written (exec (.setCursorVisible true) (opened 2 16 [.ok, .ok, .ok, .fail])) =
      [(0x08, true), (0x0C, true), (0x08, true), (0xA8, false)] ∧
    (after (.setCursorVisible true) (opened 2 16 [.ok, .ok, .ok, .fail])).ds.cursorVisible = true ∧
    (after (.setCursorVisible true) (opened 2 16 [.ok, .ok, .ok, .fail])).result = some .transportError := by decide
/-- V31. -/
theorem test_set_cursor_blinking :
    answersOk (exec (.setCursorBlinking true) (readyWith 6 { (ready 6).ds with displayOn := true, cursorVisible := true }))
      [0x08, 0x0C, 0x08, 0xF8, 0xFC, 0xF8] := by decide
/-- V35, V37. -/
theorem test_set_entry_mode :
    answersOk (exec (.setEntryMode false true) (ready 6)) [0x08, 0x0C, 0x08, 0x58, 0x5C, 0x58] ∧
    answersOk (exec (.setEntryMode false false) (ready 6)) [0x08, 0x0C, 0x08, 0x48, 0x4C, 0x48] := by decide
/-- V38: the backlight off, and the long wait last. -/
theorem test_clear :
    answersOk (exec .clear (readyWith 6 DisplayState.initial)) [0x00, 0x04, 0x00, 0x10, 0x14, 0x10] ∧
    (after .clear (ready 6)).trace.getLast? = some (.wait 3000000) := by decide
/-- V39. -/
theorem test_home : answersOk (exec .home (ready 6)) [0x08, 0x0C, 0x08, 0x28, 0x2C, 0x28] := by decide
/-- V50. -/
theorem test_shift_display :
    answersOk (exec (.shiftDisplay true) (ready 6)) [0x18, 0x1C, 0x18, 0xC8, 0xCC, 0xC8] ∧
    answersOk (exec (.shiftDisplay false) (ready 6)) [0x18, 0x1C, 0x18, 0x88, 0x8C, 0x88] := by decide
/-- V51. -/
theorem test_shift_cursor :
    answersOk (exec (.shiftCursor true) (ready 6)) [0x18, 0x1C, 0x18, 0x48, 0x4C, 0x48] ∧
    answersOk (exec (.shiftCursor false) (ready 6)) [0x18, 0x1C, 0x18, 0x08, 0x0C, 0x08] := by decide
/-- V44, V55: one past the last column, and the largest address. -/
theorem test_set_cursor_position :
    answersOk (exec (.setCursorPosition 20 3) (opened 4 20 (List.replicate 6 .ok))) [0xE8, 0xEC, 0xE8, 0x88, 0x8C, 0x88] ∧
    sentOk (exec (.setCursorPosition 43 3) (opened 4 43 (List.replicate 6 .ok))) [(false, 0xFF)] := by decide
/-- V49, V53. -/
theorem test_set_cursor_position_errors :
    onlyResult (ready 0) (.setCursorPosition 17 2) .lineOutOfRange ∧
    onlyResult (ready 0) (.setCursorPosition (-1) 0) .columnOutOfRange := by decide
/-- V61: the backlight off. -/
theorem test_write_character :
    answersOk (exec (.writeCharacter 0x41) (readyWith 6 DisplayState.initial)) [0x41, 0x45, 0x41, 0x11, 0x15, 0x11] := by decide
/-- V63, by the receiver. -/
theorem test_custom_character :
    sentOk (exec (.createCustomCharacter 1 [0x00, 0x0A, 0x1F, 0x1F, 0x0E, 0x04, 0x00, 0x00]) (ready 54))
      [(false, 0x48), (true, 0x00), (true, 0x0A), (true, 0x1F), (true, 0x1F), (true, 0x0E), (true, 0x04), (true, 0x00),
        (true, 0x00)] := by decide +kernel
/-- P3 step 5: the location is checked first. -/
theorem test_custom_character_error :
    onlyResult (ready 0) (.createCustomCharacter 8 [0, 0, 0, 0, 0, 0, 0]) .invalidCustomCharLocation := by decide
/-- V81, by the receiver. -/
theorem test_text_row :
    sentOk (exec (.displayTextRow [0x41, 0x42, 0x43, 0x44] 0) (opened 1 4 (List.replicate 60 .ok)))
      [(false, 0x80), (true, 0x20), (true, 0x20), (true, 0x20), (true, 0x20), (false, 0x80), (true, 0x41), (true, 0x42),
        (true, 0x43), (true, 0x44)] := by decide +kernel
/-- V75. -/
theorem test_text_row_error : onlyResult (ready 0) (.displayTextRow [0x41, 0x42] 2) .lineOutOfRange := by decide
/-- R151 on a display of 2 by 4: the whole row cleared, then the text at its column. -/
theorem test_text_at :
    sentOk (exec (.displayTextAt [0x4F, 0x4B] 1 2) (opened 2 4 (List.replicate 48 .ok)))
      [(false, 0xC0), (true, 0x20), (true, 0x20), (true, 0x20), (true, 0x20), (false, 0xC2), (true, 0x4F), (true, 0x4B)] := by
  decide
/-- V76 to V78. -/
theorem test_text_at_errors :
    onlyResult (ready 0) (.displayTextAt [] 0 (-1)) .columnOutOfRange ∧
    onlyResult (ready 0) (.displayTextAt [] 0 17) .textTooLong ∧
    onlyResult (ready 0) (.displayTextAt [0x41, 0x42, 0x43] 5 15) .textTooLong := by decide
/-- R167, R164 on a display of 2 by 2: "A", line break, space, "B". -/
theorem test_layout_text :
    sentOk (exec (.layoutText [0x41, 0x0A, 0x20, 0x42]) (opened 2 2 (List.replicate 60 .ok)))
      [(false, 0x80), (true, 0x20), (true, 0x20), (false, 0x80), (true, 0x41), (false, 0xC0), (true, 0x20), (true, 0x20),
        (false, 0xC0), (true, 0x42)] := by decide +kernel
/-- V105 on a smaller display. -/
theorem test_layout_text_error : onlyResult (opened 1 2 []) (.layoutText [0x41, 0x42, 0x43]) .textTooLong := by decide
/-- V110. -/
theorem test_init :
    answersOk (exec (.init 2 16) { State.unbuilt with cfg := cfg0, sinkAnswers := List.replicate 37 .ok })
      [0x30, 0x34, 0x30, 0x30, 0x34, 0x30, 0x30, 0x34, 0x30, 0x20, 0x24, 0x20, 0x20, 0x24, 0x20, 0x80, 0x84, 0x80,
        0x00, 0x04, 0x00, 0x80, 0x84, 0x80, 0x00, 0x04, 0x00, 0x60, 0x64, 0x60, 0x00, 0x04, 0x00, 0x10, 0x14, 0x10, 0x08] := by
  decide +kernel
/-- V114. -/
theorem test_init_refused :
    exec (.init 4 44) (ready 0) = .refused .badGeometry ∧ exec (.init 0 16) (ready 0) = .refused .badGeometry := ⟨rfl, rfl⟩
/-- V116: the last event is the release. -/
theorem test_close :
    answersOk (exec .close (readyWith 6 { (ready 6).ds with displayOn := true })) [0x08, 0x0C, 0x08, 0x88, 0x8C, 0x88] ∧
    (after .close (ready 6)).trace.getLast? = some .release := by decide
/-- V118: the sink is released although the first write failed. -/
theorem test_close_fails :
    (after .close (opened 2 16 [.fail])).trace = [.write 0x08 false, .release] ∧
    (after .close (opened 2 16 [.fail])).session = .closed := by decide

/-! ### Layout (V90 to V92, V99, V100) -/

theorem test_layout_trim : layout cfg0 [0x48, 0x49, 0x0A, 0x20, 0x20, 0x58] 2 16 = .ok [[0x48, 0x49], [0x20, 0x58]] := by decide
theorem test_layout_break_after_full_row :
    layout cfg0 [0x41, 0x42, 0x43, 0x44, 0x0A, 0x45, 0x46] 4 4 = .ok [[0x41, 0x42, 0x43, 0x44], [], [0x45, 0x46], []] := by decide
/-- V90 and V100: one space after a wrap dropped. -/
theorem test_layout_trims_after_a_wrap :
    layout cfg0 [0x41, 0x42, 0x43, 0x44, 0x45, 0x46, 0x47, 0x48, 0x49, 0x4A, 0x4B, 0x4C, 0x4D, 0x4E, 0x4F, 0x50, 0x20, 0x51,
      0x52] 2 16 = .ok [[0x41, 0x42, 0x43, 0x44, 0x45, 0x46, 0x47, 0x48, 0x49, 0x4A, 0x4B, 0x4C, 0x4D, 0x4E, 0x4F, 0x50],
        [0x51, 0x52]] ∧
    layout cfg0 [0x41, 0x42, 0x43, 0x44, 0x20, 0x45, 0x46, 0x47] 2 4 = .ok [[0x41, 0x42, 0x43, 0x44], [0x45, 0x46, 0x47]] := by
  decide +kernel
theorem test_layout_counts_the_break : layout cfg0 [0x41, 0x42, 0x0A, 0x43, 0x44] 1 4 = .error .textTooLong := by decide

/-! ### The panel -/

theorem test_panel_stores_the_character :
    Memory.read (after (.writeCharacter 0x41) (ready 6)).panel.ddram 0 = some 0x41 ∧
    (after (.writeCharacter 0x41) (ready 6)).panel.address = .ddram 1 := by decide
/-- R143, R226: past the last slot the address is a free one of CGRAM, and SET_DISPLAY leaves CGRAM selected (R142). -/
theorem test_panel_stays_in_cgram :
    (after (.createCustomCharacter 7 (List.replicate 8 0x1F)) (ready 54)).panel.ddram = [] ∧
    (∃ a, (after (.createCustomCharacter 7 (List.replicate 8 0x1F)) (ready 54)).panel.address = .cgram a) ∧
    ∃ a, (after (.setDisplay true) (readyAt 6 (.cgram 8) true)).panel.address = .cgram a :=
  ⟨by decide +kernel, ⟨_, rfl⟩, _, rfl⟩
/-- R48 (c): the entry-mode command tells the panel its flags. -/
theorem test_panel_entry_mode :
    (after (.setEntryMode false true) (ready 6)).panel.entry = { leftToRight := false, autoscroll := true } := by decide
/-- V1 and R92 (d): a command no encoder returns leaves no partial nibble pending. -/
theorem test_panel_phase_after_reserved_command :
    (after (.send 0x00 false true) (ready 6)).panel.phase = .high ∧ (after (.send 0x03 false true) (ready 6)).panel.phase = .high :=
  ⟨rfl, rfl⟩
theorem test_memory_rewrite :
    Memory.write (Memory.write [] 5 0x41) 5 0x42 = [(5, 0x42)] ∧
    Memory.write (Memory.write [] 5 0x41) 3 0x42 = [(3, 0x42), (5, 0x41)] := by decide
theorem test_memory_ill_formed :
    Memory.wf 128 [(5, 0), (3, 0)] = false ∧ Memory.wf 128 [(5, 0), (5, 0)] = false ∧ Memory.wf 64 [(64, 0)] = false := by decide

/-! ## Witnesses: for each obligation with hypotheses, a concrete state and operands that meet them all together -/

theorem witness_DecodeOfEncodeIsTheInstruction :
    cfg0.wf = true ∧ (Instr.setCgramAddr 7).wf = true ∧ (Instr.setDdramAddr 0x7F).wf = true := by decide
theorem witness_AcceptedBytesAreExactlyEncoderOutput :
    cfg0.wf = true ∧ decode cfg0 (.inner (.encoder 0xFF)) = .ok (.setDdramAddr 0x7F) ∧ isHostOp (.setDdramAddr 0x7F) = false := by decide
theorem witness_CommandBytesHaveTheTablesLayout :
    (0x07 &&& 0xFC : Byte) = 0x04 ∧ (0x0F &&& 0xF8 : Byte) = 0x08 ∧ (0x1C &&& 0xF3 : Byte) = 0x10 ∧
    (0x3C &&& 0xE3 : Byte) = 0x20 ∧ (0x78 &&& 0xC7 : Byte) = 0x40 ∧ (0xFF &&& 0x80 : Byte) = 0x80 ∧
    ((0x79 : Byte) ≠ 0x01 ∧ (0x79 : Byte) ≠ 0x02 ∧ (0x79 &&& 0xFC : Byte) ≠ 0x04 ∧ (0x79 &&& 0xF8 : Byte) ≠ 0x08 ∧
      (0x79 &&& 0xF3 : Byte) ≠ 0x10 ∧ (0x79 &&& 0xE3 : Byte) ≠ 0x20 ∧ (0x79 &&& 0xC7 : Byte) ≠ 0x40 ∧
      (0x79 &&& 0x80 : Byte) ≠ 0x80) := by decide
theorem witness_StepExecutesTheDecodedRequest :
    let h : HostRecord := { op := 0x20, a := 0, b := 0, data := [] }
    (ready 6).innerCall = none ∧ ({ ready 6 with requests := [h] } : State).requests = h :: [] ∧
    decode (ready 6).cfg (.host h) = .ok .clear ∧
    ({ ready 6 with innerCall := some (.encoder 0x01) } : State).innerCall = some (.encoder 0x01) ∧
    decode (ready 6).cfg (.inner (.encoder 0x01)) = .ok .clearDisplay ∧ (ready 6).requests = [] :=
  ⟨rfl, rfl, by decide, rfl, by decide, rfl⟩
theorem witness_HostReachesOnlyTheOperationsOfItsPort :
    let s := { ready 6 with requests := [{ op := 0x20, a := 0, b := 0, data := [] }] }
    s.innerCall = none ∧ step s = .next (after .clear (ready 6)) ∧ step (ready 6) = .next (ready 6) ∧
    (0x02 : Byte) ∉ ([0x00, 0x01, 0x10, 0x11, 0x12, 0x13, 0x14, 0x20, 0x21, 0x22, 0x23, 0x30, 0x31, 0x32, 0x40, 0x41, 0x42] :
      List Byte) := ⟨rfl, rfl, rfl, by decide⟩
theorem witness_EncoderCallsReturnTheSumOfTheirTerms : (ready 0).cfg.wf = true := by decide
theorem witness_AddressEncodersArePartial :
    exec (.setCgramAddr (-1)) (ready 0) = .refused .encoderDomain ∧ exec (.setCgramAddr 8) (ready 0) = .refused .encoderDomain ∧
    exec (.setDdramAddr (-1)) (ready 0) = .refused .encoderDomain ∧
    exec (.setDdramAddr 0x80) (ready 0) = .refused .encoderDomain := ⟨rfl, rfl, rfl, rfl⟩

/-- The hypotheses of every `Transmits` statement about an operation of one SEND: open, and six listed answers, all Ok or
with a Fail. -/
theorem witness_Transmits_six :
    (ready 6).session = .opened ∧ AnswersAre (ready 6) [true, true, true, true, true, true] [] ∧
    AnswersAre (opened 2 16 [.ok, .ok, .ok, .fail, .ok, .ok]) [true, true, true, false, true, true] [] ∧
    countWrites (sendActs cfg0 0x41 true true) = 6 := ⟨rfl, rfl, rfl, rfl⟩
/-- The same for any number of writes, all answered Ok. -/
theorem witness_Transmits (n : Nat) : AnswersAre (ready n) (List.replicate n true) [] := by
  simp [AnswersAre, ready, opened, SinkAnswer.ofBool]
/-- The same for the one write of BLWRITE and SET_BACKLIGHT. -/
theorem witness_Transmits_one :
    (ready 1).session = .opened ∧ AnswersAre (ready 1) [true] [] ∧ AnswersAre (opened 2 16 [.fail]) [false] [] ∧
    countWrites (blwriteActs cfg0 true) = 1 := ⟨rfl, rfl, rfl, rfl⟩
theorem witness_SendTransmitsTwoStrobedNibbles : (ready 6).session = .opened := rfl
theorem witness_readyAt (n : Nat) (a : PanelAddr) (l : Bool) :
    Usable (readyAt n a l) ∧ InPhase (readyAt n a l) ∧ OkFor (readyAt n a l) n :=
  ⟨⟨(by decide : cfg0.wf = true), rfl, (by decide : geometryOk 2 16 = true)⟩,
    ⟨rfl, rfl, (by decide : enHigh cfg0 0x08 = false)⟩, ⟨[], (List.append_nil _).symm⟩⟩
theorem witness_SendBytesCarryTheirControlBits :
    cfg0.wf = true ∧ Usable (readyAt 6 (.ddram 0) true) ∧ InPhase (readyAt 6 (.ddram 0) true) ∧ OkFor (readyAt 6 (.ddram 0) true) 6 :=
  ⟨by decide, witness_readyAt 6 (.ddram 0) true⟩
theorem witness_ReceiverRecoversEverySequenceSent : cfg0.wf = true := by decide
/-- k = 3 and k = 4, where the clauses meet (V12, V13). -/
theorem witness_FailedSendLosesNibblePhase :
    cfg0.wf = true ∧
    (strobesOf cfg0 (okBytes (cutTrace (sendActs cfg0 0x41 true true) (List.replicate 2 true ++ [false])))).length = 0 ∧
    (strobesOf cfg0 (okBytes (cutTrace (sendActs cfg0 0x41 true true) (List.replicate 3 true ++ [false])))).length = 1 := by
  decide
theorem witness_BlwriteIsOneWriteWithoutStrobe :
    (ready 1).session = .opened ∧ enHigh (ready 1).cfg (ready 1).outputs = false ∧ OkFor (ready 1) 1 :=
  ⟨rfl, by decide, [], rfl⟩
theorem witness_OnlyASilentSinkHangs :
    (opened 2 16 [.silent]).session = .opened ∧ (opened 2 16 [.silent]).sinkAnswers = List.replicate 0 .ok ++ .silent :: [] ∧
    (opened 2 16 (List.replicate 5 .ok ++ [.silent])).sinkAnswers = List.replicate 5 .ok ++ .silent :: [] ∧
    SinkAnswer.silent ∉ (ready 6).sinkAnswers := by decide
theorem witness_SinkReplies : SinkReplies (ready 6) := witness_OnlyASilentSinkHangs.2.2.2
theorem witness_OkFor (n : Nat) : OkFor (ready n) n := ⟨[], (List.append_nil _).symm⟩
theorem witness_SetBacklightIsOneWriteWithoutStrobe :
    (ready 1).session = .opened ∧ enHigh (ready 1).cfg (ready 1).outputs = false ∧ OkFor (ready 1) 1 :=
  ⟨rfl, by decide, witness_OkFor 1⟩
theorem witness_DisplaySettersUpdateThenTransmit : (ready 6).session = .opened := rfl
theorem witness_EntryModeSetterUpdatesThenTransmits : (ready 6).session = .opened := rfl
theorem witness_ClearAndHomeWaitLongAfterTheirCommand : (ready 6).session = .opened := rfl
theorem witness_ShiftsSendOneCommand : (ready 6).session = .opened := rfl
/-- Two states that differ in `displayOn`, and the same setter in both (V33, V34). -/
theorem witness_SetterTraceDependsOnTheNewStateOnly :
    let s := ready 6
    let s' := readyWith 6 { (ready 6).ds with displayOn := true }
    let t := after (.setDisplay true) s
    let t' := after (.setDisplay true) s'
    s.cfg = s'.cfg ∧ exec (.setDisplay true) s = .next t ∧ exec (.setDisplay true) s' = .next t' ∧ t.ds = t'.ds ∧
      t.result = some .ok ∧ t'.result = some .ok ∧ t.trace = s.trace ++ t.trace ∧ t'.trace = s'.trace ++ t'.trace :=
  ⟨rfl, rfl, rfl, rfl, rfl, rfl, rfl, rfl⟩
theorem witness_Usable : Usable (opened 4 43 []) ∧ Usable (opened 1 127 []) :=
  ⟨⟨by decide, rfl, by decide⟩, ⟨by decide, rfl, by decide⟩⟩
/-- The last row and the column one past its end (V55), and the first of both. -/
theorem witness_SetCursorPositionSendsTheMappedAddress :
    Usable (opened 4 43 []) ∧ RowBase 3 0x54 ∧ (3 : Int) < (opened 4 43 []).rows ∧ (43 : Int) ≤ (opened 4 43 []).columns ∧
    RowBase 0 0x00 := ⟨witness_Usable.1, .inr (.inr (.inr ⟨rfl, rfl⟩)), by decide, by decide, .inl ⟨rfl, rfl⟩⟩
/-- One pair for each clause: V47, V46 and V55. -/
theorem witness_MapperComputesTheAddressOrRaises :
    Usable (opened 4 43 []) ∧ ddramOf (opened 4 43 []) 0 4 = .error .lineOutOfRange ∧
    ddramOf (opened 4 43 []) 0 (-1) = .error .lineOutOfRange ∧ ddramOf (opened 4 43 []) 44 3 = .error .columnOutOfRange ∧
    ddramOf (opened 4 43 []) (-1) 0 = .error .columnOutOfRange ∧ ddramOf (opened 4 43 []) 43 3 = .ok 0x7F ∧ RowBase 3 0x54 :=
  ⟨witness_Usable.1, by decide, by decide, by decide, by decide, by decide, .inr (.inr (.inr ⟨rfl, rfl⟩))⟩
theorem witness_SetCursorPositionErrors :
    (ready 0).session = .opened ∧ ((2 : Int) < 0 ∨ (ready 0).rows ≤ (2 : Int)) ∧ ((-1 : Int) < 0 ∨ (ready 0).rows ≤ (-1 : Int)) ∧
    ((17 : Int) < 0 ∨ (ready 0).columns < (17 : Int)) := by decide
theorem witness_WriteCharacterSendsItsByteAsData : (ready 6).session = .opened := rfl
theorem witness_CustomCharacterSendsSlotAndEightBytes :
    (ready 54).session = .opened ∧ (0 : Int) ≤ 7 ∧ (7 : Int) ≤ 7 ∧ (List.replicate 8 (0 : Byte)).length = 8 := by decide
theorem witness_CustomCharacterErrors :
    (ready 0).session = .opened ∧ ((-1 : Int) < 0 ∨ 7 < (-1 : Int)) ∧ ((8 : Int) < 0 ∨ 7 < (8 : Int)) ∧
    (List.replicate 7 (0 : Byte)).length ≠ 8 ∧ (List.replicate 9 (0 : Byte)).length ≠ 8 := by decide
/-- A text that just fits (V73), and the empty text at the parked column (V72). -/
theorem witness_TextOperationsClearPositionAndWrite :
    Usable (ready 0) ∧ RowBase 1 0x40 ∧ (1 : Int) < (ready 0).rows ∧ ([0x41, 0x42] : List Byte).length + 14 ≤ (ready 0).columns ∧
    ([] : List Byte).length + 16 ≤ (ready 0).columns :=
  ⟨⟨by decide, rfl, by decide⟩, .inr (.inl ⟨rfl, rfl⟩), by decide, by decide, by decide⟩
/-- One request for each clause (V74, V79, V76, V80, V75). -/
theorem witness_TextOperationErrors :
    ((ready 0).columns : Int) - 14 < ([0x41, 0x42, 0x43] : List Byte).length ∧
    ¬ ((ready 0).columns : Int) - (-1) < ([] : List Byte).length ∧ (ready 0).rows ≤ (2 : Int) ∧ (-1 : Int) < 0 ∧
    (ready 0).columns < (List.replicate 17 (0x41 : Byte)).length ∧ ([0x41, 0x42] : List Byte).length ≤ (ready 0).columns ∧
    (ready 0).rows * (ready 0).columns < (List.replicate 33 (0x41 : Byte)).length := by
  decide
theorem witness_LayoutTextRendersEveryRow :
    Usable (ready 0) ∧ (List.replicate 32 (0x41 : Byte)).length ≤ (ready 0).rows * (ready 0).columns :=
  ⟨⟨by decide, rfl, by decide⟩, by decide⟩
/-- One element too many, five elements of which four are printable (R161), and a text of exactly the length. -/
theorem witness_LayoutFailsExactlyOnTooLongTexts :
    (2 * 16 < (List.replicate 33 (0x41 : Byte)).length ∧ 1 * 4 < ([0x41, 0x42, 0x0A, 0x43, 0x44] : List Byte).length) ∧
    ([0x41, 0x42, 0x43, 0x44] : List Byte).length ≤ 1 * 4 ∧
    exec (.layoutText (List.replicate 33 0x41)) (ready 0) = .next (after (.layoutText (List.replicate 33 0x41)) (ready 0)) ∧
    exec (.layoutText []) (opened 1 1 (List.replicate 18 .ok)) =
      .next (after (.layoutText []) (opened 1 1 (List.replicate 18 .ok))) := ⟨by decide, by decide, rfl, rfl⟩
theorem witness_LayoutIsWithinTheGeometry : ([0x41, 0x0A, 0x42] : List Byte).length ≤ 1 * 3 ∧
    layout cfg0 [0x41, 0x0A, 0x42] 1 3 = .ok [[0x41]] := by decide
theorem witness_LayoutWrapsAtTheColumnBoundary :
    cfg0.lineBreak ∉ ([0x41, 0x42, 0x43] : List Byte) ∧ cfg0.space ∉ ([0x41, 0x42, 0x43] : List Byte) ∧
    ([0x41, 0x42, 0x43] : List Byte).length ≤ 2 * 2 := by decide
/-- A break with a row left and on the last row (V94); a full row with a space after it and on the last row. -/
theorem witness_LineBreakAdvancesOrEndsTheLayout :
    cfg0.lineBreak ∉ ([0x41] : List Byte) ∧ ([0x41] : List Byte).length < 2 ∧
    (([0x41] : List Byte) ++ cfg0.lineBreak :: [0x20, 0x42]).length ≤ (1 + 1) * 2 ∧
    (([0x41] : List Byte) ++ cfg0.lineBreak :: []).length ≤ (0 + 1) * 2 ∧
    cfg0.lineBreak ∉ ([0x41, 0x42] : List Byte) ∧ ([0x41, 0x42] : List Byte).length = 2 ∧
    (([0x41, 0x42] : List Byte) ++ [0x20, 0x43]).length ≤ (1 + 1) * 2 ∧
    (([0x41, 0x42] : List Byte) ++ []).length ≤ (0 + 1) * 2 := by decide
theorem witness_TextOperationsIgnoreTheEntryMode :
    ({ (ready 0).ds with autoscrollOn := true, entryLeftToRight := false } : DisplayState).backlightOn = (ready 0).ds.backlightOn ∧
    exec (.displayTextRow [] 0) (opened 1 1 (List.replicate 18 .ok)) =
      .next (after (.displayTextRow [] 0) (opened 1 1 (List.replicate 18 .ok))) := ⟨rfl, rfl⟩
theorem witness_InitEstablishesTheInitialState :
    geometryOk 4 43 = true ∧ geometryOk 1 127 = true ∧ OkFor (ready 37) (6 * ((ready 37).cfg.initPreamble.length + 4) + 1) :=
  ⟨by decide, by decide, witness_OkFor 37⟩
/-- The last write of each of the three phases, and the first of the whole. -/
theorem witness_FailedInitKeepsWhatItAssigned :
    geometryOk 2 16 = true ∧ cfg0.initPreamble.length = 2 ∧ 17 < 6 * (2 + 1) ∧ ¬ 18 < 6 * (2 + 1) ∧ 35 < 6 * (2 + 4) ∧
    ¬ 36 < 6 * (2 + 4) ∧ 36 < 6 * (2 + 4) + 1 ∧
    (opened 2 16 (List.replicate 36 .ok ++ [.fail])).sinkAnswers = List.replicate 36 .ok ++ .fail :: [] := by decide
/-- V114, one geometry for each clause. -/
theorem witness_InitRefusesAnIllegalGeometry :
    geometryOk 0 16 = false ∧ geometryOk 5 16 = false ∧ geometryOk 2 0 = false ∧ geometryOk 1 128 = false ∧
    geometryOk 2 64 = false ∧ geometryOk 3 64 = false ∧ geometryOk 4 44 = false := by decide
theorem witness_CloseReleasesTheSinkOnEveryPath :
    (ready 6).session = .opened ∧ ([true, true, true, true, true, true] : List Bool).length = 6 ∧
    AnswersAre (ready 6) [true, true, true, true, true, true] [] ∧ ({ ready 6 with session := .closed } : State).session = .closed :=
  ⟨rfl, rfl, rfl, rfl⟩
theorem witness_SessionAllowsWhatTheTableSays :
    ({ ready 6 with session := .closed } : State).session ≠ .opened ∧ State.unbuilt.session = .unbuilt ∧
    isOrdinaryHostOp (.layoutText []) = true ∧ Usable (ready 6) ∧ SinkReplies (ready 6) ∧ geometryOk 2 16 = true :=
  ⟨by decide, rfl, rfl, ⟨by decide, rfl, by decide⟩, witness_SinkReplies, by decide⟩
theorem witness_ValidationErrorsHaveNoSideEffect :
    let s := ready 6
    let t := after (.setCursorPosition 0 2) s
    exec (.setCursorPosition 0 2) s = .next t ∧ t.result = some .lineOutOfRange ∧ HostResult.lineOutOfRange.isValidation = true :=
  ⟨rfl, rfl, rfl⟩
theorem witness_TransportErrorEndsAtTheFailedWrite :
    let s := opened 2 16 [.ok, .fail]
    let t := after .home s
    exec .home s = .next t ∧ t.result = some .transportError ∧
    (after .close (opened 2 16 [.fail])).result = some .transportError := ⟨rfl, rfl, rfl⟩
theorem witness_XfaultRecordsFailuresAndIsReadByNothing :
    let s := opened 2 16 [.ok, .fail]
    exec .home s = .next (after .home s) ∧ (after .home s).trace = s.trace ++ [.write 0x08 true, .write 0x0C false] ∧
    (after .home s).xfault = true := ⟨rfl, by decide, rfl⟩
theorem witness_OperationsWriteExactlyTheirFlags :
    exec (.setEntryMode false true) (ready 6) = .next (after (.setEntryMode false true) (ready 6)) ∧
    (after (.setEntryMode false true) (ready 6)).ds.entryLeftToRight = false ∧
    exec .close (ready 6) = .next (after .close (ready 6)) := ⟨rfl, rfl, rfl⟩
theorem witness_EveryBusByteCarriesTheBacklight :
    (ready 1).cfg.wf = true ∧ isHostOp (.setBacklight false) = true ∧
    exec (.setBacklight false) (ready 1) = .next (after (.setBacklight false) (ready 1)) ∧
    (after (.setBacklight false) (ready 1)).trace = (ready 1).trace ++ [.write 0x00 true] := ⟨by decide, rfl, rfl, by decide⟩
theorem witness_TraceOnlyGrowsAndParametersStay :
    let s := { ready 6 with requests := [{ op := 0x31, a := 0x41, b := 0, data := [] }] }
    step s = exec (.writeCharacter 0x41) { s with requests := [] } ∧
    exec (.writeCharacter 0x41) (ready 6) = .next (after (.writeCharacter 0x41) (ready 6)) := ⟨rfl, rfl⟩
theorem witness_OnlyCloseReleasesTheSink :
    exec .close (ready 6) = .next (after .close (ready 6)) ∧ releases (after .close (ready 6)).trace = 1 ∧
    releases (after .home (ready 6)).trace = 0 := ⟨rfl, by decide, by decide⟩
theorem witness_Inv : Inv (ready 6) :=
  ⟨by decide, fun _ => by decide, by decide, fun _ _ h => absurd h List.not_mem_nil, fun _ _ => by decide⟩
theorem witness_EveryStepKeepsTheInvariant : Inv (ready 6) ∧ step (ready 6) = .next (ready 6) := ⟨witness_Inv, rfl⟩
theorem witness_InPhase (n : Nat) : InPhase (ready n) :=
  ⟨rfl, rfl, (by decide : enHigh cfg0 0x08 = false)⟩
theorem witness_HostProgramsKeepNibblePhase :
    let s := { ready 6 with requests := [{ op := 0x20, a := 0, b := 0, data := [] }] }
    s.innerCall = none ∧ PhaseKept s ∧ step s = .next (after .clear (ready 6)) := by
  refine ⟨rfl, ⟨by decide, fun _ => by decide, fun _ _ => ⟨rfl, rfl, by decide⟩⟩, rfl⟩
theorem witness_UsableReady (n : Nat) : Usable (ready n) :=
  ⟨(by decide : cfg0.wf = true), rfl, (by decide : geometryOk 2 16 = true)⟩
/-- For each memory and each direction a state whose address is the last that moves inside it, and the address past it. -/
theorem witness_WriteCharacterStoresOneByte :
    (∀ a l, Usable (readyAt 6 a l) ∧ InPhase (readyAt 6 a l) ∧ OkFor (readyAt 6 a l) 6) ∧
    (readyAt 6 (.ddram 0x7E) true).panel.address = .ddram 0x7E ∧ (0x7E : DdramAddr) ≠ 0x7F ∧
    (readyAt 6 (.ddram 1) false).panel.address = .ddram 1 ∧ (1 : DdramAddr) ≠ 0 ∧
    (readyAt 6 (.cgram 0x3E) true).panel.address = .cgram 0x3E ∧ (0x3E : CgramAddr) ≠ 0x3F ∧
    (readyAt 6 (.cgram 1) false).panel.address = .cgram 1 ∧ (1 : CgramAddr) ≠ 0 ∧
    (readyAt 6 (.cgram 0x3F) true).panel.address = .cgram 0x3F ∧
    goesUp (readyAt 6 (.cgram 0x3E) true).cfg.panelUp (readyAt 6 (.cgram 0x3E) true).panel.entry = true ∧
    goesUp (readyAt 6 (.cgram 1) false).cfg.panelUp (readyAt 6 (.cgram 1) false).panel.entry = false :=
  ⟨fun a l => witness_readyAt 6 a l, rfl, by decide, rfl, by decide, rfl, by decide, rfl, by decide, rfl, by decide, by decide⟩
theorem witness_SetCursorPositionMovesThePanelCursor :
    Usable (ready 6) ∧ InPhase (ready 6) ∧ OkFor (ready 6) 6 ∧ RowBase 1 0x40 ∧ (1 : Int) < (ready 6).rows ∧
    16 ≤ (ready 6).columns := ⟨witness_UsableReady 6, witness_InPhase 6, witness_OkFor 6, .inr (.inl ⟨rfl, rfl⟩), by decide, by decide⟩
theorem witness_ParkedWriteGoesPastTheRow :
    Usable (ready 12) ∧ InPhase (ready 12) ∧ OkFor (ready 12) 12 ∧ RowBase 1 0x40 ∧ (1 : Int) < (ready 12).rows :=
  ⟨witness_UsableReady 12, witness_InPhase 12, witness_OkFor 12, .inr (.inl ⟨rfl, rfl⟩), by decide⟩
theorem witness_ClearAndHomePutTheCursorAtTheOrigin : Usable (ready 12) ∧ InPhase (ready 12) ∧ OkFor (ready 12) 12 :=
  ⟨witness_UsableReady 12, witness_InPhase 12, witness_OkFor 12⟩
theorem witness_CustomCharacterFillsItsSlot :
    Usable (ready 54) ∧ InPhase (ready 54) ∧ OkFor (ready 54) 54 ∧
    goesUp (ready 54).cfg.panelUp (ready 54).panel.entry = true ∧ 7 ≤ 7 ∧ (List.replicate 8 (0x1F : Byte)).length = 8 :=
  ⟨witness_UsableReady 54, witness_InPhase 54, witness_OkFor 54, by decide, by decide, by decide⟩
/-- A text that reaches the end of its row, one from column 0 that fills it, and a laid-out text. -/
theorem witness_TextFillsItsRow :
    (∀ n, Usable (ready n) ∧ InPhase (ready n) ∧ OkFor (ready n) n) ∧
    6 * ((ready 120).columns + 2 + ([0x4F, 0x4B] : List Byte).length) = 120 ∧
    goesUp (ready 120).cfg.panelUp (ready 120).panel.entry = true ∧ RowBase 1 0x40 ∧ (1 : Int) < (ready 120).rows ∧
    ([0x4F, 0x4B] : List Byte).length + 14 ≤ (ready 120).columns ∧
    (List.replicate 16 (0x41 : Byte)).length + 0 ≤ (ready 204).columns ∧
    6 * ((ready 408).rows * ((ready 408).columns + 2) + (List.replicate 32 (0x41 : Byte)).length) = 408 ∧
    (List.replicate 32 (0x41 : Byte)).length ≤ (ready 408).rows * (ready 408).columns :=
  ⟨fun n => ⟨witness_UsableReady n, witness_InPhase n, witness_OkFor n⟩, by decide, by decide, .inr (.inl ⟨rfl, rfl⟩), by decide,
    by decide, by decide, by decide, by decide⟩
theorem witness_CommandsKeepTheGlyphs :
    Usable (ready 6) ∧ InPhase (ready 6) ∧ exec .clear (ready 6) = .next (after .clear (ready 6)) ∧
    (after .clear (ready 6)).result ≠ some .transportError ∧ exec .close (ready 6) = .next (after .close (ready 6)) ∧
    (after .close (ready 6)).result ≠ some .transportError :=
  ⟨witness_UsableReady 6, witness_InPhase 6, rfl, by decide, rfl, by decide⟩
theorem witness_SetEntryModeTellsThePanel :
    Usable (ready 6) ∧ InPhase (ready 6) ∧ OkFor (ready 6) 6 ∧ isOrdinaryHostOp .clear = true ∧
    (∀ l a, Instr.clear ≠ .setEntryMode l a) ∧ (∀ l a, Instr.close ≠ .setEntryMode l a) ∧
    exec .close (ready 6) = .next (after .close (ready 6)) ∧ (after .close (ready 6)).result ≠ some .transportError ∧ exec .clear (ready 6) = .next (after .clear (ready 6)) ∧
    (after .clear (ready 6)).result ≠ some .transportError :=
  ⟨witness_UsableReady 6, witness_InPhase 6, witness_OkFor 6, rfl, fun _ _ h => Instr.noConfusion h,
    fun _ _ h => Instr.noConfusion h, rfl, by decide, rfl, by decide⟩
/-- The first and the last slot, in either direction, and the last address of CGRAM. -/
theorem witness_DataGoesToCgramUntilAPositioningCommand :
    (∀ n a l, Usable (readyAt n a l) ∧ InPhase (readyAt n a l) ∧ OkFor (readyAt n a l) n) ∧ (0 : Int) ≤ 0 ∧ (0 : Int) ≤ 7 ∧
    (7 : Int) ≤ 7 ∧ (List.replicate 8 (0x1F : Byte)).length = 8 ∧ (readyAt 12 (.cgram 0x3F) true).panel.address = .cgram 0x3F :=
  ⟨witness_readyAt, by decide, by decide, by decide, by decide, rfl⟩

end Sys2Proof.Tests
end

section
/-! SUPPORT. The form every instruction has. An instruction is INIT, CLOSE, an encoder call, or a transmission: one that in
an open session writes the DS fields of its rule and then carries out a plan made of the DS it has just written. A property
that the few updates of these forms keep is kept by every instruction (`exec_kept`, `execInit_kept`). -/

namespace Sys2Proof.Machine

/-! ## The four classes of instructions -/

/-- The instructions that write their DS fields and then carry out a plan: the host operations other than INIT and CLOSE,
and the two transport calls. -/
def isTransmission : Instr → Bool
  | .send _ _ _ => true
  | .blwrite _ => true
  | i => isOrdinaryHostOp i

/-- DS once a transmission has written the fields its rule names (10_state.md R28). -/
def newDs (ds : DisplayState) : Instr → DisplayState
  | .setBacklight on => { ds with backlightOn := on }
  | .setDisplay on => { ds with displayOn := on }
  | .setCursorVisible on => { ds with cursorVisible := on }
  | .setCursorBlinking on => { ds with cursorBlinking := on }
  | .setEntryMode l a => { ds with entryLeftToRight := l, autoscrollOn := a }
  | _ => ds

/-- The plan of a transmission, in the state whose DS it has already written. (The instructions of the other classes have no
plan; `exec_transmission` speaks of none of them.) -/
def planOf (u : State) : Instr → Plan
  | .setBacklight _ => .go (blwriteActs u.cfg u.ds.backlightOn)
  | .setDisplay _ => .go (u.command u.dc)
  | .setCursorVisible _ => .go (u.command u.dc)
  | .setCursorBlinking _ => .go (u.command u.dc)
  | .setEntryMode _ _ => .go (u.command u.em)
  | .clear => .go u.clearActs
  | .home => .go (u.command returnHomeByte ++ [.wait u.cfg.tLong])
  | .shiftDisplay right => .go (u.command (shiftByte u.cfg true right))
  | .shiftCursor right => .go (u.command (shiftByte u.cfg false right))
  | .setCursorPosition column row => planCursorPosition u column row
  | .writeCharacter code => .go (u.data code)
  | .createCustomCharacter location bitmap => planCustomCharacter u location bitmap
  | .displayTextRow text row => planTextAt u text row 0
  | .displayTextAt text row column => planTextAt u text row column
  | .layoutText text => planLayoutText u text
  | .send value rs bl => .go (sendActs u.cfg value rs bl)
  | .blwrite bl => .go (blwriteActs u.cfg bl)
  | _ => .outsideEncoder

theorem instr_class (i : Instr) :
    (∃ rows columns, i = .init rows columns) ∨ i = .close ∨ isEncoderCall i = true ∨ isTransmission i = true := by
  cases i <;> simp [isEncoderCall, isTransmission, isOrdinaryHostOp]

theorem exec_encoderCall {i : Instr} (h : isEncoderCall i = true) (s : State) :
    exec i s = partialEncoder s (commandByte s.cfg i) := by
  cases i <;> simp only [isEncoderCall, Bool.false_eq_true] at h <;> rfl

theorem exec_transmission {i : Instr} (h : isTransmission i = true) (s : State) :
    exec i s = whenOpen s (runPlan (s.withDs (newDs s.ds i)) (planOf (s.withDs (newDs s.ds i)) i)) := by
  cases i <;> simp only [isTransmission, isOrdinaryHostOp, Bool.false_eq_true] at h <;> rfl

/-- Everything an encoder call can answer with a next state: the byte. -/
theorem partialEncoder_next {s t : State} {r : Option Byte} (h : partialEncoder s r = .next t) :
    ∃ b, t = s.encoderReturns b := by
  cases r with
  | none => simp [partialEncoder] at h
  | some b => exact ⟨b, by simpa [partialEncoder] using h.symm⟩

theorem execInit_next {rows columns : Int} {s t : State} (h : execInit rows columns s = .next t) :
    geometryOk rows columns = true ∧ t = (initTraffic (s.construct rows.toNat columns.toNat)).report := by
  unfold execInit at h
  split at h
  · rename_i hg
    exact ⟨hg, unlessStalled_next h⟩
  · simp at h

/-- CLOSE's traffic on an open session, with the release and the session's end that follow either answer (R215). -/
def closeTraffic (s : State) : Traffic :=
  let u := s.setDisplayOn false
  let r := perform (u.command u.dc) u
  { r with state := r.state.closeSession }

/-- Everything CLOSE can answer with a next state. -/
theorem execClose_next {s t : State} (h : execClose s = .next t) :
    (s.session = .closed ∧ t = s.returnOk) ∨ (s.session = .opened ∧ t = (closeTraffic s).report) := by
  unfold execClose at h
  split at h
  · exact .inl ⟨‹_›, by simpa using h.symm⟩
  · exact .inr ⟨‹_›, unlessStalled_next h⟩
  · simp at h

/-! ## What stands on the bus: waits, SENDs and BLWRITEs -/

/-- The event lists of the block's operations: waits, SENDs and BLWRITEs that carry the backlight bit `bl`. -/
inductive BusActs (p : Params) (bl : Bool) : List Act → Prop
  | nil : BusActs p bl []
  | wait (ns : Nat) {rest : List Act} (h : BusActs p bl rest) : BusActs p bl (.wait ns :: rest)
  | send (v : Byte) (rs : Bool) {rest : List Act} (h : BusActs p bl rest) : BusActs p bl (sendActs p v rs bl ++ rest)
  | blwrite {rest : List Act} (h : BusActs p bl rest) : BusActs p bl (blwriteActs p bl ++ rest)

theorem BusActs.append {p : Params} {bl : Bool} {a b : List Act} (ha : BusActs p bl a) (hb : BusActs p bl b) :
    BusActs p bl (a ++ b) := by
  induction ha with
  | nil => exact hb
  | wait ns _ ih => exact .wait ns ih
  | send v rs _ ih => exact List.append_assoc .. ▸ .send v rs ih
  | blwrite _ ih => exact .blwrite ih

theorem busActs_send (p : Params) (v : Byte) (rs bl : Bool) : BusActs p bl (sendActs p v rs bl) := .send v rs .nil

theorem busActs_blwrite (p : Params) (bl : Bool) : BusActs p bl (blwriteActs p bl) := .blwrite .nil

section
variable (s : State)

theorem command_busActs (v : Byte) : BusActs s.cfg s.ds.backlightOn (s.command v) := busActs_send ..

theorem data_busActs (v : Byte) : BusActs s.cfg s.ds.backlightOn (s.data v) := busActs_send ..

theorem dataAll_busActs (bytes : List Byte) : BusActs s.cfg s.ds.backlightOn (s.dataAll bytes) := by
  induction bytes with
  | nil => exact .nil
  | cons b rest ih => exact (data_busActs s b).append ih

theorem commandAll_busActs (bytes : List Byte) : BusActs s.cfg s.ds.backlightOn (s.commandAll bytes) := by
  induction bytes with
  | nil => exact .nil
  | cons b rest ih => exact (command_busActs s b).append ih

theorem initFunctionSet_busActs : BusActs s.cfg s.ds.backlightOn
    (s.commandAll s.cfg.initPreamble ++ s.command (functionSetByte s.cfg false true false)) :=
  (commandAll_busActs s _).append (command_busActs s _)

theorem clearActs_busActs : BusActs s.cfg s.ds.backlightOn s.clearActs := (command_busActs s _).append (.wait _ .nil)

end

/-- A plan that transmits, if anything, an event list of the bus. -/
def Plan.OnBus (p : Params) (bl : Bool) : Plan → Prop
  | .go acts => BusActs p bl acts
  | .raise _ => True
  | .outsideEncoder => True

theorem Plan.append_onBus {p : Params} {bl : Bool} {a b : Plan} (ha : a.OnBus p bl) (hb : b.OnBus p bl) :
    (a.append b).OnBus p bl := by
  cases a with
  | go x =>
    cases b with
    | go y => exact BusActs.append ha hb
    | raise e => trivial
    | outsideEncoder => trivial
  | raise e => trivial
  | outsideEncoder => trivial

section
variable (s : State)

theorem addressThen_onBus (command : Option Byte) {rest : List Act} (h : BusActs s.cfg s.ds.backlightOn rest) :
    (addressThen s command rest).OnBus s.cfg s.ds.backlightOn := by
  cases command with
  | none => trivial
  | some b => exact (command_busActs s b).append h

theorem planCursorPosition_onBus (column row : Int) : (planCursorPosition s column row).OnBus s.cfg s.ds.backlightOn := by
  unfold planCursorPosition
  split
  · trivial
  · exact addressThen_onBus s _ .nil

theorem planCustomCharacter_onBus (location : Int) (bitmap : List Byte) :
    (planCustomCharacter s location bitmap).OnBus s.cfg s.ds.backlightOn := by
  unfold planCustomCharacter
  split
  · trivial
  · split
    · trivial
    · exact addressThen_onBus s _ (dataAll_busActs s bitmap)

theorem planTextAt_onBus (text : List Byte) (row column : Int) :
    (planTextAt s text row column).OnBus s.cfg s.ds.backlightOn := by
  unfold planTextAt
  repeat' split
  case h_1 =>
    exact (((command_busActs s _).append (dataAll_busActs s _)).append (command_busActs s _)).append (dataAll_busActs s text)
  all_goals trivial

theorem planRows_onBus (lines : List (List Byte)) (r : Nat) : (planRows s lines r).OnBus s.cfg s.ds.backlightOn := by
  induction lines generalizing r with
  | nil => exact .nil
  | cons line rest ih => exact Plan.append_onBus (planTextAt_onBus s line r 0) (ih (r + 1))

theorem planLayoutText_onBus (text : List Byte) : (planLayoutText s text).OnBus s.cfg s.ds.backlightOn := by
  unfold planLayoutText
  split
  · trivial
  · exact planRows_onBus s _ 0

end

/-- The backlight bit of a transmission's bytes: that of DS, but for the transport calls, which are given one. -/
def busBacklight (u : State) : Instr → Bool
  | .send _ _ bl => bl
  | .blwrite bl => bl
  | _ => u.ds.backlightOn

/-- What an instruction plans to transmit is an event list of the bus. -/
theorem planOf_onBus (u : State) (i : Instr) : (planOf u i).OnBus u.cfg (busBacklight u i) := by
  cases i
  case setBacklight on => exact busActs_blwrite ..
  case setDisplay on => exact command_busActs ..
  case setCursorVisible on => exact command_busActs ..
  case setCursorBlinking on => exact command_busActs ..
  case setEntryMode l a => exact command_busActs ..
  case clear => exact clearActs_busActs u
  case home => exact (command_busActs u _).append (.wait _ .nil)
  case shiftDisplay right => exact command_busActs ..
  case shiftCursor right => exact command_busActs ..
  case setCursorPosition column row => exact planCursorPosition_onBus ..
  case writeCharacter code => exact data_busActs ..
  case createCustomCharacter location bitmap => exact planCustomCharacter_onBus ..
  case displayTextRow text row => exact planTextAt_onBus ..
  case displayTextAt text row column => exact planTextAt_onBus ..
  case layoutText text => exact planLayoutText_onBus ..
  case send value rs bl => exact busActs_send ..
  case blwrite bl => exact busActs_blwrite ..
  all_goals trivial

/-- Everything a transmission can answer with a next state, in an open session: it has written its DS fields and transmitted
an event list of the bus, or raised a validation error. -/
theorem exec_transmission_next {i : Instr} (hi : isTransmission i = true) {s t : State} (h : exec i s = .next t) :
    s.session = .opened ∧ ∃ u, u = s.withDs (newDs s.ds i) ∧
      ((∃ acts, BusActs u.cfg (busBacklight u i) acts ∧ t = (perform acts u).report) ∨ ∃ e, t = u.raiseError e) := by
  rw [exec_transmission hi] at h
  obtain ⟨ho, hr⟩ := whenOpen_next h
  refine ⟨ho, _, rfl, ?_⟩
  have hbus := planOf_onBus (s.withDs (newDs s.ds i)) i
  obtain ⟨acts, hp, ht⟩ | ⟨e, -, ht⟩ := runPlan_next hr
  · rw [hp] at hbus
    exact .inl ⟨acts, hbus, ht⟩
  · exact .inr ⟨e, ht⟩

/-! ## A property that every instruction keeps -/

/-- A property of the state that every update an instruction is made of keeps. INIT's own first assignments and first
traffic are left out: see `execInit_kept`. -/
structure KeptByUpdates (P : State → Prop) : Prop where
  withDs         : ∀ s ds, P s → P (s.withDs ds)
  answer         : ∀ s r, P s → P (s.answer r)
  encoderReturns : ∀ s b, P s → P (s.encoderReturns b)
  closeSession   : ∀ s : State, P s → P s.closeSession
  initialised    : ∀ s : State, P s → P { s with panel := Panel.initialised }
  perform        : ∀ s bl acts, BusActs s.cfg bl acts → P s → P (perform acts s).state

theorem andThen_kept {P : State → Prop} {t : Traffic} {f : State → Traffic} (h : P t.state)
    (hf : ∀ u, P u → P (f u).state) : P (t.andThen f).state := by
  unfold Traffic.andThen
  split
  · exact hf _ h
  · exact h

section
variable {P : State → Prop} (hP : KeptByUpdates P)
include hP

theorem report_kept {t : Traffic} (h : P t.state) : P t.report := by
  unfold Traffic.report
  split <;> exact hP.answer _ _ h

theorem execClose_kept {s t : State} (h : execClose s = .next t) (hs : P s) : P t := by
  obtain ⟨-, rfl⟩ | ⟨-, rfl⟩ := execClose_next h
  · exact hP.answer _ _ hs
  · exact report_kept hP (hP.closeSession _ (hP.perform _ _ _ (command_busActs _ _) (hP.withDs _ _ hs)))

/-- Every instruction but INIT keeps what its updates keep. -/
theorem exec_kept {i : Instr} (hi : ∀ rows columns, i ≠ .init rows columns) {s t : State} (h : exec i s = .next t)
    (hs : P s) : P t := by
  obtain ⟨rows, columns, rfl⟩ | rfl | he | ht := instr_class i
  · exact absurd rfl (hi rows columns)
  · exact execClose_kept hP h hs
  · rw [exec_encoderCall he] at h
    obtain ⟨b, rfl⟩ := partialEncoder_next h
    exact hP.encoderReturns _ _ hs
  · obtain ⟨-, u, rfl, ⟨acts, hb, rfl⟩ | ⟨e, rfl⟩⟩ := exec_transmission_next ht h
    · exact report_kept hP (hP.perform _ _ _ hb (hP.withDs _ _ hs))
    · exact hP.answer _ _ (hP.withDs _ _ hs)

/-- INIT keeps what its updates keep, once it holds after the function set (R211). -/
theorem execInit_kept {rows columns : Int} {s t : State} (h : execInit rows columns s = .next t)
    (hs : geometryOk rows columns = true → P (initFunctionSet (s.construct rows.toNat columns.toNat)).state) : P t := by
  obtain ⟨hg, rfl⟩ := execInit_next h
  have display : ∀ u, P u → P (initDisplay u).state := fun u hu =>
    hP.perform _ _ _ (((command_busActs _ _).append (command_busActs _ _)).append (clearActs_busActs _)) (hP.withDs _ _ hu)
  have backlight : ∀ u, P u → P (initBacklight u).state := fun u hu =>
    hP.perform _ _ _ (busActs_blwrite _ _) (hP.withDs _ _ hu)
  exact report_kept hP (andThen_kept (andThen_kept (andThen_kept (hs hg) display) backlight) hP.initialised)

end

end Sys2Proof.Machine
end

section
/-! SUPPORT and PROOFS. The invariant of the machine (10_state.md R32): the bytes of the block's event lists keep it. -/

namespace Sys2Proof.Machine

/-! ## The bytes an event list writes -/

/-- A write in the trace after an event list was there before, or is one of the list. -/
theorem mem_perform_trace {acts : List Act} {s : State} {b : Byte} {ok : Bool}
    (h : Event.write b ok ∈ (perform acts s).state.trace) : Event.write b ok ∈ s.trace ∨ Act.write b ∈ acts := by
  induction acts generalizing s with
  | nil => exact .inl h
  | cons x rest ih =>
    cases x with
    | wait ns => simpa using ih (s := s.emit (.wait ns)) h
    | write c =>
      simp only [perform] at h
      split at h
      · have := ih h
        simp only [writeOk_trace, List.mem_append, List.mem_singleton, Event.write.injEq] at this
        simp only [List.mem_cons, Act.write.injEq]
        tauto
      · simp only [writeFailed_trace, List.mem_append, List.mem_singleton, Event.write.injEq] at h
        simp only [List.mem_cons, Act.write.injEq]
        tauto

/-- The byte on the outputs once an event list was answered Ok, where `old` stood there before. -/
def lastByte (old : Byte) : List Act → Byte
  | [] => old
  | .wait _ :: rest => lastByte old rest
  | .write b :: rest => lastByte b rest

theorem lastByte_append (old : Byte) (a b : List Act) : lastByte old (a ++ b) = lastByte (lastByte old a) b := by
  induction a generalizing old with
  | nil => rfl
  | cons x rest ih => cases x <;> exact ih _

theorem perform_outputs {acts : List Act} {s : State} (h : (perform acts s).ok = true) :
    (perform acts s).state.outputs = lastByte s.outputs acts := by
  induction acts generalizing s with
  | nil => rfl
  | cons x rest ih =>
    cases x with
    | wait ns => exact ih (s := s.emit (.wait ns)) h
    | write b =>
      simp only [perform] at h ⊢
      split at h
      · rename_i hw
        rw [if_pos hw]
        exact ih h
      · cases h

section
variable {p : Params} (hp : Masks p)
include hp

/-- No byte of a SEND has the RW bit (R67 (c)). -/
theorem sendActs_rw {v : Byte} {rs bl : Bool} {b : Byte} (h : Act.write b ∈ sendActs p v rs bl) :
    hasBit b p.rwMask = false := by
  simp only [sendActs, nibbleActs, highNibbleByte_idle, lowNibbleByte_idle, List.mem_append, List.mem_cons, Act.write.injEq,
    reduceCtorEq, List.not_mem_nil, or_false, false_or] at h
  rcases h with (rfl | rfl | rfl) | (rfl | rfl | rfl)
  · exact idleByte_rw hp ..
  · exact strobeByte_rw hp ..
  · exact idleByte_rw hp ..
  · exact idleByte_rw hp ..
  · exact strobeByte_rw hp ..
  · exact idleByte_rw hp ..

/-- A SEND leaves the enable line low, whatever stood on the outputs before (R92 (d)). -/
theorem lastByte_sendActs (old v : Byte) (rs bl : Bool) : enHigh p (lastByte old (sendActs p v rs bl)) = false :=
  idleByte_en hp (v <<< 4) rs bl

/-- No byte of an event list of the bus has the RW bit (R67 (c)). -/
theorem BusActs.rw {bl : Bool} {acts : List Act} (h : BusActs p bl acts) {b : Byte} (hb : Act.write b ∈ acts) :
    hasBit b p.rwMask = false := by
  induction h with
  | nil => simp at hb
  | wait ns _ ih => exact ih (by simpa using hb)
  | send v rs _ ih =>
    rcases List.mem_append.1 hb with hb | hb
    · exact sendActs_rw hp hb
    · exact ih hb
  | blwrite _ ih =>
    rcases List.mem_append.1 hb with hb | hb
    · obtain rfl : b = blwriteByte p bl := by simpa [blwriteActs] using hb
      exact blwriteByte_rw hp bl
    · exact ih hb

/-- An event list of the bus leaves the enable line low where it was low (R44). -/
theorem BusActs.lastByte_en {bl : Bool} {acts : List Act} (h : BusActs p bl acts) {old : Byte}
    (ho : enHigh p old = false) : enHigh p (lastByte old acts) = false := by
  induction h generalizing old with
  | nil => exact ho
  | wait ns _ ih => exact ih ho
  | send v rs _ ih =>
    rw [lastByte_append]
    exact ih (lastByte_sendActs hp ..)
  | blwrite _ ih => exact ih (blwriteByte_en hp _)

end

/-! ## The invariant through traffic -/

/-- The invariant of the machine without its clause about the enable line: what INIT has before its first write, on a sink
of whose outputs nothing is known. -/
structure InvButEnable (s : State) : Prop where
  params    : s.cfg.wf = true
  geometry  : s.session = .opened → geometryOk s.rows s.columns = true
  memory    : s.panel.memoryWf = true
  writeOnly : ∀ b ok, Event.write b ok ∈ s.trace → hasBit b s.cfg.rwMask = false

theorem Inv.butEnable {s : State} (h : Inv s) : InvButEnable s := ⟨h.params, h.geometry, h.memory, h.writeOnly⟩

/-- An event list of the bus that ends with the enable line low establishes the whole invariant: where a write fails, XFAULT
is set and nothing is claimed of the outputs. -/
theorem inv_perform {s : State} (h : InvButEnable s) {bl : Bool} {acts : List Act} (ha : BusActs s.cfg bl acts)
    (he : s.session = .opened → s.xfault = false → enHigh s.cfg (lastByte s.outputs acts) = false) :
    Inv (perform acts s).state := by
  have hu := perform_untouched acts s
  refine ⟨hu.cfg ▸ h.params, ?_, perform_memoryWf acts s h.memory, ?_, ?_⟩
  · rw [hu.session, hu.rows, hu.columns]
    exact h.geometry
  · intro b ok hb
    rw [hu.cfg]
    rcases mem_perform_trace hb with hb | hb
    · exact h.writeOnly b ok hb
    · exact ha.rw (masks_of_wf h.params) hb
  · intro ho hx
    rw [perform_xfault, Bool.or_eq_false_iff, Bool.not_eq_false'] at hx
    obtain ⟨hx, hok⟩ := hx
    rw [hu.cfg, perform_outputs hok]
    exact he (hu.session ▸ ho) hx

/-- Every update an instruction is made of keeps the invariant. -/
theorem inv_keptByUpdates : KeptByUpdates Inv where
  withDs _ _ h := ⟨h.params, h.geometry, h.memory, h.writeOnly, h.enable⟩
  answer _ _ h := ⟨h.params, h.geometry, h.memory, h.writeOnly, h.enable⟩
  encoderReturns _ _ h := ⟨h.params, h.geometry, h.memory, h.writeOnly, h.enable⟩
  closeSession _ h := ⟨h.params, nofun, h.memory, fun b ok hb => h.writeOnly b ok (by simpa using hb), nofun⟩
  initialised _ h := ⟨h.params, h.geometry, Panel.initialised_memoryWf, h.writeOnly, h.enable⟩
  perform _ _ _ ha h :=
    inv_perform h.butEnable ha fun ho hx => ha.lastByte_en (masks_of_wf h.params) (h.enable ho hx)

/-! ## INIT -/

theorem construct_memoryWf {s : State} (h : s.panel.memoryWf = true) (rows columns : Nat) :
    (s.construct rows columns).panel.memoryWf = true := by
  cases hs : s.session
  · simpa [State.construct, State.connect, hs] using Panel.unknown_memoryWf s.ticks
  · simpa [State.construct, State.connect, hs] using h
  · simpa [State.construct, State.connect, hs] using Panel.unknown_memoryWf s.ticks

theorem geometryOk_toNat {rows columns : Int} (h : geometryOk rows columns = true) :
    geometryOk rows.toNat columns.toNat = true := by
  have hpos : 1 ≤ rows ∧ 1 ≤ columns := by
    simp only [geometryOk, Bool.and_eq_true, decide_eq_true_eq] at h
    obtain ⟨⟨⟨hr, -⟩, hc⟩, -⟩ := h
    exact ⟨hr, hc⟩
  rwa [Int.toNat_of_nonneg (by omega), Int.toNat_of_nonneg (by omega)]

theorem construct_invButEnable {s : State} (h : Inv s) {rows columns : Int} (hg : geometryOk rows columns = true) :
    InvButEnable (s.construct rows.toNat columns.toNat) where
  params := by simpa using h.params
  geometry _ := geometryOk_toNat hg
  memory := construct_memoryWf h.memory ..
  writeOnly := by simpa using h.writeOnly

/-- INIT's traffic up to the function set ends with a SEND, so with the enable line low, whatever it started from (R211). -/
theorem initFunctionSet_inv {s : State} (h : InvButEnable s) : Inv (initFunctionSet s).state := by
  refine inv_perform h (initFunctionSet_busActs s) fun _ _ => ?_
  rw [lastByte_append]
  exact lastByte_sendActs (masks_of_wf h.params) ..

/-- Every instruction keeps the invariant of the machine. -/
theorem exec_keeps_inv {i : Instr} {s t : State} (hs : Inv s) (h : exec i s = .next t) : Inv t := by
  by_cases hi : ∃ rows columns, i = .init rows columns
  · obtain ⟨rows, columns, rfl⟩ := hi
    exact execInit_kept inv_keptByUpdates h fun hg => initFunctionSet_inv (construct_invButEnable hs hg)
  · exact exec_kept inv_keptByUpdates (fun r c hrc => hi ⟨r, c, hrc⟩) h hs

/-- Taking the next request touches nothing the invariant speaks of. -/
theorem takeRequest_keeps_inv {s u : State} {r : Request} (hs : Inv s) (h : s.takeRequest = some (r, u)) : Inv u := by
  obtain ⟨c, -, -, rfl⟩ | ⟨q, rest, -, -, -, rfl⟩ := takeRequest_some h
  · exact ⟨hs.params, hs.geometry, hs.memory, hs.writeOnly, hs.enable⟩
  · exact ⟨hs.params, hs.geometry, hs.memory, hs.writeOnly, hs.enable⟩

/-- Settles O49: a step waits, or takes a request and executes an instruction, and both keep the invariant. -/
theorem everyStepKeepsTheInvariant : Obligations.EveryStepKeepsTheInvariant := by
  intro s t hs h
  obtain ⟨-, rfl⟩ | ⟨r, u, i, hu, -, he⟩ := step_next h
  · exact hs
  · exact exec_keeps_inv (takeRequest_keeps_inv hs hu) he

end Sys2Proof.Machine
end

section
/-! SUPPORT. What the plans of the text operations are made from: states that agree in it have the same plans. -/

namespace Sys2Proof.Machine

/-- The two states agree in all that the SENDs of a row of text are made from: "DS is not read" but for the backlight bit
(44_text_ops.md R229). -/
structure SameTextInputs (s t : State) : Prop where
  cfg       : t.cfg = s.cfg
  rows      : t.rows = s.rows
  columns   : t.columns = s.columns
  backlight : t.ds.backlightOn = s.ds.backlightOn

section
variable {s t : State} (h : SameTextInputs s t)
include h

theorem command_congr : t.command = s.command := by
  funext v
  rw [State.command, State.command, h.cfg, h.backlight]

theorem data_congr : t.data = s.data := by
  funext v
  rw [State.data, State.data, h.cfg, h.backlight]

theorem dataAll_congr : t.dataAll = s.dataAll := by
  funext bytes
  induction bytes with
  | nil => rfl
  | cons b rest ih => rw [State.dataAll, State.dataAll, data_congr h, ih]

theorem rowInRange_congr : rowInRange t = rowInRange s := by
  funext row
  rw [rowInRange, rowInRange, h.rows]

theorem columnInRange_congr : columnInRange t = columnInRange s := by
  funext column
  rw [columnInRange, columnInRange, h.columns]

theorem planCustomCharacter_congr (location : Int) (bitmap : List Byte) :
    planCustomCharacter t location bitmap = planCustomCharacter s location bitmap := by
  simp only [planCustomCharacter, addressThen, command_congr h, dataAll_congr h]

theorem planTextAt_congr (text : List Byte) (row column : Int) :
    planTextAt t text row column = planTextAt s text row column := by
  unfold planTextAt State.blankRow
  rw [h.cfg, h.columns, rowInRange_congr h, columnInRange_congr h, command_congr h, dataAll_congr h]

theorem planRows_congr (lines : List (List Byte)) (r : Nat) : planRows t lines r = planRows s lines r := by
  induction lines generalizing r with
  | nil => rfl
  | cons line rest ih => simp only [planRows, planTextAt_congr h, ih]

theorem planLayoutText_congr (text : List Byte) : planLayoutText t text = planLayoutText s text := by
  simp only [planLayoutText, h.cfg, h.rows, h.columns, planRows_congr h]

end

end Sys2Proof.Machine
end

section
/-! PROOFS. XFAULT (10_state.md R24): set exactly by failed writes, cleared by INIT alone, and read by nothing. -/

namespace Sys2Proof.Machine

/-! ## XFAULT records the failed writes -/

/-- From `s` to `t` the trace has grown, and XFAULT is set in `t` exactly if `x`, its value to begin with, was true or a write
of the new events failed. -/
def FaultsRecorded (x : Bool) (s t : State) : Prop :=
  ∃ ev, t.trace = s.trace ++ ev ∧ (t.xfault = true ↔ x = true ∨ ∃ b, Event.write b false ∈ ev)

section
variable {x : Bool} {s t : State}

theorem FaultsRecorded.snoc (h : FaultsRecorded x s t) {u : State} {e : Event} (ht : u.trace = t.trace ++ [e])
    (hx : u.xfault = true ↔ t.xfault = true ∨ ∃ b, e = .write b false) : FaultsRecorded x s u := by
  obtain ⟨ev, htr, hxt⟩ := h
  refine ⟨ev ++ [e], by rw [ht, htr, List.append_assoc], ?_⟩
  simp only [hx, hxt, List.mem_append, List.mem_singleton, exists_or, or_assoc, eq_comm]

theorem FaultsRecorded.iff (h : FaultsRecorded x s t) {ev : List Event} (htr : t.trace = s.trace ++ ev) :
    t.xfault = true ↔ x = true ∨ ∃ b, Event.write b false ∈ ev := by
  obtain ⟨ev', htr', hx⟩ := h
  obtain rfl : ev = ev' := List.append_cancel_left (htr.symm.trans htr')
  exact hx

theorem FaultsRecorded.perform (h : FaultsRecorded x s t) (acts : List Act) : FaultsRecorded x s (perform acts t).state :=
  perform_induction (P := FaultsRecorded x s)
    (fun _ ns h => h.snoc (e := .wait ns) rfl (by simp))
    (fun _ b h => h.snoc (e := .write b true) rfl (by simp))
    (fun _ b h => h.snoc (e := .write b false) rfl (by simp)) acts t h

theorem faultsRecorded_keptByUpdates (x : Bool) (s : State) : KeptByUpdates (FaultsRecorded x s) where
  withDs _ _ h := h
  answer _ _ h := h
  encoderReturns _ _ h := h
  closeSession _ h := h.snoc (e := .release) rfl (by simp)
  initialised _ h := h
  perform _ _ acts _ h := h.perform acts

theorem exec_faultsRecorded {i : Instr} (hi : ∀ rows columns, i ≠ .init rows columns) (h : exec i s = .next t) :
    FaultsRecorded s.xfault s t :=
  exec_kept (faultsRecorded_keptByUpdates ..) hi h ⟨[], by simp, by simp⟩

/-- INIT clears XFAULT before its first write (R211). -/
theorem execInit_faultsRecorded {rows columns : Int} (h : execInit rows columns s = .next t) : FaultsRecorded false s t := by
  have hc : FaultsRecorded false s (s.construct rows.toNat columns.toNat) := ⟨[], by simp, by simp⟩
  exact execInit_kept (faultsRecorded_keptByUpdates ..) h fun _ => hc.perform _

end

/-! ## XFAULT is read by nothing -/

/-- `t` is `s` with any value of XFAULT. -/
def SameButXfault (s t : State) : Prop := ∃ x, t = { s with xfault := x }

section
variable {s t : State} (h : SameButXfault s t)
include h

theorem SameButXfault.cfg : t.cfg = s.cfg := by
  obtain ⟨y, rfl⟩ := h
  rfl

theorem SameButXfault.session : t.session = s.session := by
  obtain ⟨y, rfl⟩ := h
  rfl

theorem SameButXfault.ds : t.ds = s.ds := by
  obtain ⟨y, rfl⟩ := h
  rfl

theorem SameButXfault.sinkAnswers : t.sinkAnswers = s.sinkAnswers := by
  obtain ⟨y, rfl⟩ := h
  rfl

theorem SameButXfault.textInputs : SameTextInputs s t := by
  obtain ⟨y, rfl⟩ := h
  exact ⟨rfl, rfl, rfl, rfl⟩

theorem SameButXfault.withDs (ds : DisplayState) : SameButXfault (s.withDs ds) (t.withDs ds) := by
  obtain ⟨y, rfl⟩ := h
  exact ⟨y, rfl⟩

theorem SameButXfault.answer (r : HostResult) : SameButXfault (s.answer r) (t.answer r) := by
  obtain ⟨y, rfl⟩ := h
  exact ⟨y, rfl⟩

theorem SameButXfault.encoderReturns (b : Byte) : SameButXfault (s.encoderReturns b) (t.encoderReturns b) := by
  obtain ⟨y, rfl⟩ := h
  exact ⟨y, rfl⟩

theorem SameButXfault.closeSession : SameButXfault s.closeSession t.closeSession := by
  obtain ⟨y, rfl⟩ := h
  exact ⟨y, rfl⟩

/-- INIT overwrites XFAULT before anything else happens. -/
theorem SameButXfault.construct (rows columns : Nat) : t.construct rows columns = s.construct rows columns := by
  obtain ⟨y, rfl⟩ := h
  cases hs : s.session <;> simp [State.construct, State.connect, hs]

/-- No plan reads XFAULT. -/
theorem SameButXfault.planOf (i : Instr) : planOf t i = planOf s i := by
  cases i
  case createCustomCharacter location bitmap => exact planCustomCharacter_congr h.textInputs ..
  case displayTextRow text row => exact planTextAt_congr h.textInputs ..
  case displayTextAt text row column => exact planTextAt_congr h.textInputs ..
  case layoutText text => exact planLayoutText_congr h.textInputs text
  all_goals
    obtain ⟨y, rfl⟩ := h
    rfl

end

/-- The same answers so far, and the same state but for XFAULT. -/
structure SameTraffic (a b : Traffic) : Prop where
  ok    : b.ok = a.ok
  state : SameButXfault a.state b.state

theorem SameTraffic.report {a b : Traffic} (h : SameTraffic a b) : SameButXfault a.report b.report := by
  unfold Traffic.report
  rw [h.ok]
  split <;> exact h.state.answer _

/-- XFAULT changes neither the answer of a write nor what it does to anything but XFAULT. -/
theorem perform_sameTraffic {s t : State} (h : SameButXfault s t) (acts : List Act) :
    SameTraffic (perform acts s) (perform acts t) := by
  induction acts generalizing s t with
  | nil => exact ⟨rfl, h⟩
  | cons x rest ih =>
    obtain ⟨y, rfl⟩ := h
    cases x with
    | wait ns => exact ih ⟨y, rfl⟩
    | write b =>
      have hn : State.nextWriteOk { s with xfault := y } = s.nextWriteOk := rfl
      simp only [perform, hn]
      split
      · exact ih ⟨y, rfl⟩
      · exact ⟨rfl, true, rfl⟩

/-- The same outcome, with the same next state but for XFAULT. -/
def SameOutcome : Host.Outcome State Fault Refusal → Host.Outcome State Fault Refusal → Prop
  | .next s, o => ∃ t, SameButXfault s t ∧ o = .next t
  | .fault f, o => o = .fault f
  | .refused r, o => o = .refused r

theorem SameOutcome.next {s t : State} (h : SameButXfault s t) : SameOutcome (.next s) (.next t) := ⟨t, h, rfl⟩

theorem SameOutcome.refl (o : Host.Outcome State Fault Refusal) : SameOutcome o o := by
  cases o with
  | next s => exact .next ⟨s.xfault, rfl⟩
  | fault f => rfl
  | refused r => rfl

section
variable {s t : State} (h : SameButXfault s t)
include h

theorem unlessStalled_sameOutcome (n : Nat) {u v : State} (huv : SameButXfault u v) :
    SameOutcome (unlessStalled s n u) (unlessStalled t n v) := by
  unfold unlessStalled
  rw [h.sinkAnswers]
  split
  · rfl
  · exact .next huv

theorem whenOpen_sameOutcome {o o' : Host.Outcome State Fault Refusal} (ho : SameOutcome o o') :
    SameOutcome (whenOpen s o) (whenOpen t o') := by
  unfold whenOpen
  rw [h.session]
  split
  · exact ho
  · rfl
  · rfl

theorem runPlan_sameOutcome (plan : Plan) : SameOutcome (runPlan s plan) (runPlan t plan) := by
  cases plan with
  | go acts => exact unlessStalled_sameOutcome h _ (perform_sameTraffic h acts).report
  | raise e => exact .next (h.answer e)
  | outsideEncoder => rfl

theorem partialEncoder_sameOutcome (r : Option Byte) : SameOutcome (partialEncoder s r) (partialEncoder t r) := by
  cases r with
  | none => rfl
  | some b => exact .next (h.encoderReturns b)

theorem execInit_sameOutcome (rows columns : Int) : SameOutcome (execInit rows columns s) (execInit rows columns t) := by
  unfold execInit
  rw [h.construct, h.cfg]
  split
  · exact unlessStalled_sameOutcome h _ ⟨_, rfl⟩
  · rfl

theorem closeTraffic_sameTraffic : SameTraffic (closeTraffic s) (closeTraffic t) := by
  have hu : SameButXfault (s.setDisplayOn false) (t.setDisplayOn false) := by
    unfold State.setDisplayOn
    rw [h.ds]
    exact h.withDs _
  have hdc : (t.setDisplayOn false).dc = (s.setDisplayOn false).dc := by rw [State.dc, State.dc, hu.cfg, hu.ds]
  obtain ⟨hok, hst⟩ := perform_sameTraffic hu ((s.setDisplayOn false).command (s.setDisplayOn false).dc)
  simp only [closeTraffic, command_congr hu.textInputs, hdc]
  exact ⟨hok, hst.closeSession⟩

theorem execClose_sameOutcome : SameOutcome (execClose s) (execClose t) := by
  unfold execClose
  rw [h.session]
  split
  · exact .next (h.answer .ok)
  · exact unlessStalled_sameOutcome h 6 (closeTraffic_sameTraffic h).report
  · rfl

/-- No instruction reads XFAULT (R24). -/
theorem exec_sameOutcome (i : Instr) : SameOutcome (exec i s) (exec i t) := by
  obtain ⟨rows, columns, rfl⟩ | rfl | he | ht := instr_class i
  · exact execInit_sameOutcome h rows columns
  · exact execClose_sameOutcome h
  · rw [exec_encoderCall he, exec_encoderCall he, h.cfg]
    exact partialEncoder_sameOutcome h _
  · have hu := h.withDs (newDs s.ds i)
    rw [exec_transmission ht, exec_transmission ht, h.ds, hu.planOf]
    exact whenOpen_sameOutcome h (runPlan_sameOutcome hu _)

end

/-- Settles O43: the record of failed writes is kept by every update of an instruction, from XFAULT as it was or, in INIT,
from false; and XFAULT enters no answer, no plan and no session check. -/
theorem xfaultRecordsFailuresAndIsReadByNothing : Obligations.XfaultRecordsFailuresAndIsReadByNothing := by
  refine ⟨fun i s t ev h htr => ?_, fun i s x => ?_⟩
  · by_cases hi : ∃ rows columns, i = .init rows columns
    · obtain ⟨rows, columns, rfl⟩ := hi
      simpa using (execInit_faultsRecorded h).iff htr
    · have hi' : ∀ rows columns, i ≠ .init rows columns := fun r c hrc => hi ⟨r, c, hrc⟩
      rw [(exec_faultsRecorded hi' h).iff htr, and_iff_right hi']
  · have hx := exec_sameOutcome (t := { s with xfault := x }) ⟨x, rfl⟩ i
    cases ho : exec i s with
    | next t =>
      rw [ho] at hx
      obtain ⟨u, ⟨y, rfl⟩, hu⟩ := hx
      exact ⟨y, hu⟩
    | fault f => rwa [ho] at hx
    | refused r => rwa [ho] at hx

end Sys2Proof.Machine
end

section
/-! PROOFS. DS (10_state.md R21, R28): what each operation writes of it, and its six bits. -/

namespace Sys2Proof.Machine

/-! ## What an operation writes to DS -/

@[simp] theorem report_ds (t : Traffic) : t.report.ds = t.state.ds := by
  unfold Traffic.report
  split <;> rfl

/-- The encoder calls write no flag (41_command_encoder.md). -/
theorem newDs_encoderCall (ds : DisplayState) {i : Instr} (h : isEncoderCall i = true) : newDs ds i = ds := by
  cases i <;> simp only [isEncoderCall, Bool.false_eq_true] at h <;> rfl

theorem execClose_ds {s t : State} (h : execClose s = .next t) :
    t.ds = if s.session = .opened then { s.ds with displayOn := false } else s.ds := by
  obtain ⟨hs, rfl⟩ | ⟨hs, rfl⟩ := execClose_next h
  · simp [hs]
  · simp [hs, closeTraffic, (perform_untouched _ _).ds]

/-- No event list touches DS, so a transmission leaves it as its rule wrote it, on every path. -/
theorem exec_ds {i : Instr} (hi : ∀ rows columns, i ≠ .init rows columns) (hc : i ≠ .close) {s t : State}
    (h : exec i s = .next t) : t.ds = newDs s.ds i := by
  obtain ⟨rows, columns, rfl⟩ | rfl | he | ht := instr_class i
  · exact absurd rfl (hi rows columns)
  · exact absurd rfl hc
  · rw [exec_encoderCall he] at h
    obtain ⟨b, rfl⟩ := partialEncoder_next h
    exact (newDs_encoderCall s.ds he).symm
  · obtain ⟨-, u, rfl, ⟨acts, -, rfl⟩ | ⟨e, rfl⟩⟩ := exec_transmission_next ht h
    · simp [(perform_untouched _ _).ds]
    · rfl

/-- Settles O45: CLOSE by its two sessions, every other instruction by `exec_ds`. -/
theorem operationsWriteExactlyTheirFlags : Obligations.OperationsWriteExactlyTheirFlags := by
  intro i s t hi h
  cases i
  case init rows columns => exact absurd rfl (hi rows columns)
  case close => exact execClose_ds h
  all_goals exact exec_ds hi nofun h

/-! ## DS is six bits -/

/-- Bit `k` of the packed value is field `k` of the table (R21). -/
theorem pack_bits (ds : DisplayState) :
    ds.pack.getLsbD 0 = ds.backlightOn ∧ ds.pack.getLsbD 1 = ds.displayOn ∧ ds.pack.getLsbD 2 = ds.cursorVisible ∧
    ds.pack.getLsbD 3 = ds.cursorBlinking ∧ ds.pack.getLsbD 4 = ds.entryLeftToRight ∧
    ds.pack.getLsbD 5 = ds.autoscrollOn := by
  simp only [DisplayState.pack, BitVec.getLsbD_append, BitVec.getLsbD_ofBool]
  simp

theorem unpack_pack (ds : DisplayState) : DisplayState.unpack ds.pack = ds := by
  simp only [DisplayState.unpack, pack_bits ds]

theorem pack_unpack (v : BitVec 6) : (DisplayState.unpack v).pack = v := by
  obtain ⟨h0, h1, h2, h3, h4, h5⟩ := pack_bits (DisplayState.unpack v)
  refine BitVec.eq_of_getLsbD_eq fun i hi => ?_
  interval_cases i
  exacts [h0, h1, h2, h3, h4, h5]

/-- Settles O44, bit by bit. -/
theorem displayStateIsSixIndependentBits : Obligations.DisplayStateIsSixIndependentBits :=
  ⟨fun ds => ⟨unpack_pack ds, pack_bits ds⟩, pack_unpack⟩

end Sys2Proof.Machine
end

section
/-! PROOFS. Both invariants hold at reset and before any INIT (10_state.md R30, R32). -/

namespace Sys2Proof.Machine

theorem default_wf : Params.default.wf = true := by decide

theorem reset_inPhase : InPhase State.reset := ⟨rfl, rfl, by decide⟩

theorem reset_inv : Inv State.reset :=
  ⟨default_wf, fun _ => by decide, Panel.initialised_memoryWf, nofun, fun _ _ => reset_inPhase.enable⟩

theorem reset_phaseKept : PhaseKept State.reset := ⟨default_wf, reset_inv.geometry, fun _ _ => reset_inPhase⟩

theorem unbuilt_inv : Inv State.unbuilt := ⟨default_wf, nofun, Panel.unknown_memoryWf 0, nofun, nofun⟩

theorem unbuilt_phaseKept : PhaseKept State.unbuilt := ⟨default_wf, nofun, nofun⟩

/-- Settles O51: reset by evaluation of its few values; before any INIT no session is open. -/
theorem invariantsHoldAtReset : Obligations.InvariantsHoldAtReset :=
  ⟨reset_inv, reset_phaseKept, unbuilt_inv, unbuilt_phaseKept⟩

end Sys2Proof.Machine
end

section
/-! PROOFS. The reference receiver (20_memory.md R49) on the trace of a sequence of SENDs. -/

namespace Sys2Proof.Machine

/-! ## The bytes of the trace -/

/-- A SEND answered Ok puts its six bus bytes in front of those of what follows. -/
theorem okBytes_cutTrace_send (p : Params) (v : Byte) (rs bl : Bool) (acts : List Act) (n : Nat) :
    okBytes (cutTrace (sendActs p v rs bl ++ acts) (List.replicate (n + 6) true)) =
      sendBytes p v rs bl ++ okBytes (cutTrace acts (List.replicate n true)) := rfl

/-! ## The strobes of the bytes -/

section
variable {p : Params}

/-- A byte with the enable line low begins no strobe. -/
theorem strobesOf_cons_low {a : Byte} (h : enHigh p a = false) (rest : List Byte) :
    strobesOf p (a :: rest) = strobesOf p rest := by
  cases rest with
  | nil => rfl
  | cons b rest => simp [strobesOf, isStrobe, h]

/-- The enable line high, then low, is a strobe: the byte that had it high is latched (D24). -/
theorem strobesOf_cons_strobe {a b : Byte} (ha : enHigh p a = true) (hb : enHigh p b = false) (rest : List Byte) :
    strobesOf p (a :: b :: rest) = (hasBit a p.rsMask, dataNibble a) :: strobesOf p (b :: rest) := by
  simp [strobesOf, isStrobe, ha, hb]

variable (hp : Masks p)
include hp

/-- The three bus bytes of a nibble make one strobe, which latches the nibble and its register select. -/
theorem strobesOf_nibble (data : Byte) (rs bl : Bool) (rest : List Byte) :
    strobesOf p (idleByte p data rs bl :: (idleByte p data rs bl ||| p.enMask) :: idleByte p data rs bl :: rest) =
      (rs, data.extractLsb' 4 4) :: strobesOf p rest := by
  have low : enHigh p (idleByte p data rs bl) = false := idleByte_en hp ..
  rw [strobesOf_cons_low low, strobesOf_cons_strobe (strobeByte_en hp ..) low, strobesOf_cons_low low, strobeByte_rs hp,
    dataNibble_strobeByte hp]

/-- The six bus bytes of a SEND make two strobes, high nibble first (R66). -/
theorem strobesOf_sendBytes (v : Byte) (rs bl : Bool) (rest : List Byte) :
    strobesOf p (sendBytes p v rs bl ++ rest) =
      (rs, v.extractLsb' 4 4) :: (rs, (v <<< 4).extractLsb' 4 4) :: strobesOf p rest := by
  rw [← strobesOf_nibble hp (v <<< 4) rs bl rest, ← strobesOf_nibble hp v rs bl]
  rfl

end

/-- Settles O11, by induction on the SENDs: each is received as its own byte, whatever follows. -/
theorem receiverRecoversEverySequenceSent : Obligations.ReceiverRecoversEverySequenceSent := by
  intro p bl sends hp
  induction sends with
  | nil => rfl
  | cons x rest ih =>
    obtain ⟨rs, v⟩ := x
    rw [receive] at ih ⊢
    rw [List.length_cons, Nat.mul_succ, sendAll, okBytes_cutTrace_send, strobesOf_sendBytes (masks_of_wf hp), pairUp, ih,
      joinNibbles_halves]

end Sys2Proof.Machine
end

section
/-! PROOFS. What a step takes (20_memory.md R50), and what no step changes: the events already in the trace, the parameters
(00_scope.md R7) and, but for INIT, the geometry (10_state.md R22). -/

namespace Sys2Proof.Machine

/-- A step executes what the request it takes decodes to. -/
theorem step_of_takeRequest {s u : State} {r : Request} {i : Instr} (hr : s.takeRequest = some (r, u))
    (hd : decode s.cfg r = .ok i) : step s = exec i u := by
  simp only [step, hr, hd]

theorem takeRequest_inner {s : State} {c : InnerCall} (h : s.innerCall = some c) :
    s.takeRequest = some (.inner c, { s with innerCall := none }) := by
  simp only [State.takeRequest, h]

theorem takeRequest_host {s : State} {r : HostRecord} {rest : List HostRecord} (hi : s.innerCall = none)
    (hr : s.requests = r :: rest) : s.takeRequest = some (.host r, { s with requests := rest }) := by
  simp only [State.takeRequest, hi, hr]

theorem step_of_nothing_outstanding {s : State} (hi : s.innerCall = none) (hr : s.requests = []) : step s = .next s := by
  simp only [step, State.takeRequest, hi, hr]

/-- Settles O5, by the three cases of what is outstanding. -/
theorem stepExecutesTheDecodedRequest : Obligations.StepExecutesTheDecodedRequest :=
  ⟨fun _ _ _ _ hi hr hd => step_of_takeRequest (takeRequest_host hi hr) hd,
    fun _ _ _ hc hd => step_of_takeRequest (takeRequest_inner hc) hd,
    fun _ hi hr => step_of_nothing_outstanding hi hr⟩

/-- From `s` to `t` the trace has only grown, and the parameters are the same. -/
structure Extends (s t : State) : Prop where
  cfg   : t.cfg = s.cfg
  trace : s.trace <+: t.trace

theorem Extends.perform {s t : State} (h : Extends s t) (acts : List Act) : Extends s (perform acts t).state :=
  ⟨(perform_untouched acts t).cfg.trans h.cfg, h.trace.trans (perform_trace_extends acts t)⟩

theorem extends_keptByUpdates (s : State) : KeptByUpdates (Extends s) where
  withDs _ _ h := ⟨h.cfg, h.trace⟩
  answer _ _ h := ⟨h.cfg, h.trace⟩
  encoderReturns _ _ h := ⟨h.cfg, h.trace⟩
  closeSession _ h := ⟨h.cfg, h.trace.trans (List.prefix_append ..)⟩
  initialised _ h := ⟨h.cfg, h.trace⟩
  perform _ _ acts _ h := h.perform acts

theorem exec_extends {i : Instr} {s t : State} (h : exec i s = .next t) : Extends s t := by
  by_cases hi : ∃ rows columns, i = .init rows columns
  · obtain ⟨rows, columns, rfl⟩ := hi
    have hc : Extends s (s.construct rows.toNat columns.toNat) := ⟨by simp, by simp⟩
    exact execInit_kept (extends_keptByUpdates s) h fun _ => hc.perform _
  · exact exec_kept (extends_keptByUpdates s) (fun r c hrc => hi ⟨r, c, hrc⟩) h ⟨rfl, List.prefix_refl _⟩

theorem takeRequest_extends {s u : State} {r : Request} (h : s.takeRequest = some (r, u)) : Extends s u := by
  obtain ⟨-, -, -, rfl⟩ | ⟨-, -, -, -, -, rfl⟩ := takeRequest_some h
  · exact ⟨rfl, List.prefix_refl _⟩
  · exact ⟨rfl, List.prefix_refl _⟩

/-- The geometry is that of `s`. -/
def SameGeometry (s t : State) : Prop := t.rows = s.rows ∧ t.columns = s.columns

theorem sameGeometry_keptByUpdates (s : State) : KeptByUpdates (SameGeometry s) where
  withDs _ _ h := h
  answer _ _ h := h
  encoderReturns _ _ h := h
  closeSession _ h := h
  initialised _ h := h
  perform t _ acts _ := fun ⟨hr, hc⟩ =>
    ⟨(perform_untouched acts t).rows.trans hr, (perform_untouched acts t).columns.trans hc⟩

/-- Settles O47: every update of an instruction only extends the trace, and none but INIT's first assignments writes the
geometry. -/
theorem traceOnlyGrowsAndParametersStay : Obligations.TraceOnlyGrowsAndParametersStay := by
  refine ⟨fun s t h => ?_, fun i s t hi h => exec_kept (sameGeometry_keptByUpdates s) hi h ⟨rfl, rfl⟩⟩
  obtain ⟨-, rfl⟩ | ⟨r, u, i, hu, -, he⟩ := step_next h
  · exact ⟨rfl, List.prefix_refl _⟩
  · obtain ⟨hc, htr⟩ := takeRequest_extends hu
    obtain ⟨hc', htr'⟩ := exec_extends he
    exact ⟨hc'.trans hc, htr.trans htr'⟩

end Sys2Proof.Machine
end

section
/-! PROOFS. The backlight bit (20_memory.md R53) of the bytes a host operation puts on the bus. -/

namespace Sys2Proof.Machine

/-- The events an event list adds to the trace: every write among them is one of the list. -/
theorem perform_newEvents (acts : List Act) (s : State) :
    ∃ ev, (perform acts s).state.trace = s.trace ++ ev ∧ ∀ b ok, Event.write b ok ∈ ev → Act.write b ∈ acts := by
  induction acts generalizing s with
  | nil => exact ⟨[], by simp [perform], nofun⟩
  | cons x rest ih =>
    cases x with
    | wait ns =>
      obtain ⟨ev, htr, hev⟩ := ih (s.emit (.wait ns))
      refine ⟨.wait ns :: ev, by simpa [perform] using htr, fun b ok hb => ?_⟩
      exact List.mem_cons_of_mem _ (hev b ok (by simpa using hb))
    | write c =>
      simp only [perform]
      split
      · obtain ⟨ev, htr, hev⟩ := ih (s.writeOk c)
        refine ⟨.write c true :: ev, by simpa using htr, fun b ok hb => ?_⟩
        obtain ⟨rfl, -⟩ | hb : (b = c ∧ ok = true) ∨ Event.write b ok ∈ ev := by simpa using hb
        · exact List.mem_cons_self
        · exact List.mem_cons_of_mem _ (hev b ok hb)
      · refine ⟨[.write c false], rfl, fun b ok hb => ?_⟩
        obtain ⟨rfl, -⟩ : b = c ∧ ok = false := by simpa using hb
        exact List.mem_cons_self

section
variable {p : Params} (hp : Masks p)
include hp

/-- Every byte of a SEND carries the backlight bit it is given (R92 (b)). -/
theorem sendActs_bl {v : Byte} {rs bl : Bool} {b : Byte} (h : Act.write b ∈ sendActs p v rs bl) :
    hasBit b p.blMask = bl := by
  simp only [sendActs, nibbleActs, highNibbleByte_idle, lowNibbleByte_idle, List.mem_append, List.mem_cons, Act.write.injEq,
    reduceCtorEq, List.not_mem_nil, or_false, false_or] at h
  rcases h with (rfl | rfl | rfl) | (rfl | rfl | rfl)
  · exact idleByte_bl hp ..
  · exact strobeByte_bl hp ..
  · exact idleByte_bl hp ..
  · exact idleByte_bl hp ..
  · exact strobeByte_bl hp ..
  · exact idleByte_bl hp ..

theorem BusActs.bl {bl : Bool} {acts : List Act} (h : BusActs p bl acts) {b : Byte} (hb : Act.write b ∈ acts) :
    hasBit b p.blMask = bl := by
  induction h with
  | nil => simp at hb
  | wait ns _ ih => exact ih (by simpa using hb)
  | send v rs _ ih =>
    rcases List.mem_append.1 hb with hb | hb
    · exact sendActs_bl hp hb
    · exact ih hb
  | blwrite _ ih =>
    rcases List.mem_append.1 hb with hb | hb
    · obtain rfl : b = blwriteByte p bl := by simpa [blwriteActs] using hb
      exact blwriteByte_bl hp bl
    · exact ih hb

end

/-- From `s` to `t` the trace has grown, and every byte among the new events carries the backlight bit of DS in `t`. -/
def BacklightOnNewBytes (s t : State) : Prop :=
  ∃ ev, t.trace = s.trace ++ ev ∧ ∀ b ok, Event.write b ok ∈ ev → hasBit b s.cfg.blMask = t.ds.backlightOn

theorem perform_backlightOnNewBytes {s : State} (hw : s.cfg.wf = true) {acts : List Act}
    (ha : BusActs s.cfg s.ds.backlightOn acts) : BacklightOnNewBytes s (perform acts s).state := by
  obtain ⟨ev, htr, hev⟩ := perform_newEvents acts s
  refine ⟨ev, htr, fun b ok hb => ?_⟩
  rw [(perform_untouched acts s).ds]
  exact ha.bl (masks_of_wf hw) (hev b ok hb)

theorem report_trace (t : Traffic) : t.report.trace = t.state.trace := by
  unfold Traffic.report
  split <;> rfl

theorem BacklightOnNewBytes.report {s : State} {t : Traffic} (h : BacklightOnNewBytes s t.state) :
    BacklightOnNewBytes s t.report := by
  obtain ⟨ev, htr, hev⟩ := h
  exact ⟨ev, by rw [report_trace, htr], by rwa [report_ds]⟩

theorem execClose_backlightOnNewBytes {s t : State} (hw : s.cfg.wf = true) (h : execClose s = .next t) :
    BacklightOnNewBytes s t := by
  obtain ⟨-, rfl⟩ | ⟨-, rfl⟩ := execClose_next h
  · exact ⟨[], by simp, nofun⟩
  · obtain ⟨ev, htr, hev⟩ := perform_backlightOnNewBytes (s := s.setDisplayOn false) hw (command_busActs _ _)
    have hnew : BacklightOnNewBytes s (closeTraffic s).state :=
      ⟨ev ++ [.release], by simp [closeTraffic, htr], fun b ok hb => hev b ok (by simpa using hb)⟩
    exact hnew.report

/-- The host operations give their bytes the backlight bit of DS as they have written it; only a transport call on its own
is given one. -/
theorem busBacklight_hostOp (u : State) {i : Instr} (h : isHostOp i = true) : busBacklight u i = u.ds.backlightOn := by
  cases i <;> simp only [isHostOp, Bool.false_eq_true] at h <;> rfl

theorem not_encoderCall_of_hostOp {i : Instr} (h : isHostOp i = true) : isEncoderCall i = false := by
  cases i <;> simp only [isHostOp, Bool.false_eq_true] at h <;> rfl

theorem exec_backlightOnNewBytes {i : Instr} (hh : isHostOp i = true) (hi : ∀ rows columns, i ≠ .init rows columns)
    {s t : State} (hw : s.cfg.wf = true) (h : exec i s = .next t) : BacklightOnNewBytes s t := by
  obtain ⟨rows, columns, rfl⟩ | rfl | he | ht := instr_class i
  · exact absurd rfl (hi rows columns)
  · exact execClose_backlightOnNewBytes hw h
  · simp [not_encoderCall_of_hostOp hh] at he
  · obtain ⟨-, u, rfl, ⟨acts, hb, rfl⟩ | ⟨e, rfl⟩⟩ := exec_transmission_next ht h
    · rw [busBacklight_hostOp _ hh] at hb
      exact (perform_backlightOnNewBytes (s := s.withDs (newDs s.ds i)) hw hb).report
    · exact ⟨[], by simp, nofun⟩

/-- Settles O46: the new events of `exec_backlightOnNewBytes` are the ones the statement names. -/
theorem everyBusByteCarriesTheBacklight : Obligations.EveryBusByteCarriesTheBacklight := by
  intro i s t ev hw hh hi h htr
  obtain ⟨ev', htr', hev⟩ := exec_backlightOnNewBytes hh hi hw h
  obtain rfl : ev = ev' := List.append_cancel_left (htr.symm.trans htr')
  exact hev

end Sys2Proof.Machine
end

section
/-! SUPPORT. The decoder reads back every command byte the CommandEncoder returns (30_encoding.md R62, R63), for every
legal choice of the flag bits (R64). -/

namespace Sys2Proof.Machine

/-! ## One-bit flags -/

theorem oneBit_cases : ∀ m : Byte, oneBit m = true →
    m = 0x01 ∨ m = 0x02 ∨ m = 0x04 ∨ m = 0x08 ∨ m = 0x10 ∨ m = 0x20 ∨ m = 0x40 ∨ m = 0x80 := by decide

theorem oneBits_disjoint {m k : Byte} (hm : oneBit m = true) (hk : oneBit k = true) (hne : m ≠ k) : m &&& k = 0 := by
  rcases oneBit_cases m hm with rfl | rfl | rfl | rfl | rfl | rfl | rfl | rfl <;>
    rcases oneBit_cases k hk with rfl | rfl | rfl | rfl | rfl | rfl | rfl | rfl <;> revert hne <;> decide

section
variable {base f : Byte} (hf : flagOk base f = true)
include hf

theorem flagOk_bounds : oneBit f = true ∧ f < base := by simpa [flagOk] using hf

/-- A flag stands in no bit above its family's leading one. -/
theorem hasBit_flagBit_above (x : Bool) {k : Byte} (hk : oneBit k = true) (hlt : base < k) :
    hasBit (flagBit x f) k = false := by
  obtain ⟨h1, hf'⟩ := flagOk_bounds hf
  exact hasBit_flagBit_other x (oneBits_disjoint h1 hk (by bv_omega))

/-- The leading one of a family is none of its flags. -/
theorem hasBit_base_flag (hb : oneBit base = true) : hasBit base f = false := by
  obtain ⟨h1, hlt⟩ := flagOk_bounds hf
  simp [hasBit, oneBits_disjoint hb h1 (by bv_omega)]

theorem hasBit_flagBit_flag (x : Bool) : hasBit (flagBit x f) f = x := by
  obtain ⟨h1, -⟩ := flagOk_bounds hf
  exact hasBit_flagBit_self x (by rintro rfl; simp [oneBit] at h1)

theorem hasBit_flagBit_sibling (x : Bool) {g : Byte} (hg : flagOk base g = true) (hne : f ≠ g) :
    hasBit (flagBit x f) g = false :=
  hasBit_flagBit_other x (oneBits_disjoint (flagOk_bounds hf).1 (flagOk_bounds hg).1 hne)

end

/-- The facts about the flag bits that R64 requires, one by one. -/
structure Flags (p : Params) : Prop where
  entryDir     : flagOk 0x04 p.fEntryDir = true
  entryShift   : flagOk 0x04 p.fEntryShift = true
  entry        : p.fEntryDir ≠ p.fEntryShift
  dispOn       : flagOk 0x08 p.fDispOn = true
  dispCursor   : flagOk 0x08 p.fDispCursor = true
  dispBlink    : flagOk 0x08 p.fDispBlink = true
  on_cursor    : p.fDispOn ≠ p.fDispCursor
  on_blink     : p.fDispOn ≠ p.fDispBlink
  cursor_blink : p.fDispCursor ≠ p.fDispBlink
  shiftDisplay : flagOk 0x10 p.fShiftDisplay = true
  shiftRight   : flagOk 0x10 p.fShiftRight = true
  shift        : p.fShiftDisplay ≠ p.fShiftRight
  func8Bit     : flagOk 0x20 p.fFunc8Bit = true
  func2Line    : flagOk 0x20 p.fFunc2Line = true
  funcTall     : flagOk 0x20 p.fFuncTall = true
  bit_line     : p.fFunc8Bit ≠ p.fFunc2Line
  bit_tall     : p.fFunc8Bit ≠ p.fFuncTall
  line_tall    : p.fFunc2Line ≠ p.fFuncTall

theorem flags_of_wf {p : Params} (h : p.wf = true) : Flags p := by
  simp only [Params.wf, Params.flagsOk, Bool.and_eq_true, bne_iff_ne] at h
  obtain ⟨⟨-, ⟨⟨⟨⟨⟨⟨⟨⟨⟨⟨⟨⟨⟨⟨⟨⟨⟨h1, h2⟩, h3⟩, h4⟩, h5⟩, h6⟩, h7⟩, h8⟩, h9⟩, h10⟩, h11⟩, h12⟩, h13⟩, h14⟩, h15⟩, h16⟩, h17⟩,
    h18⟩⟩, -⟩ := h
  exact ⟨h1, h2, h3, h4, h5, h6, h7, h8, h9, h10, h11, h12, h13, h14, h15, h16, h17, h18⟩

/-! ## The families of command bytes -/

/-- The leading one of the byte is `base`: its family is that of `base` (R62). -/
structure Leads (base b : Byte) : Prop where
  self  : hasBit b base = true
  above : ∀ k, oneBit k = true → base < k → hasBit b k = false

theorem leads_base {base : Byte} (hb : oneBit base = true) : Leads base base where
  self := hasBit_flagBit_self true (by rintro rfl; simp [oneBit] at hb)
  above k hk hlt := by simp [hasBit, oneBits_disjoint hb hk (by bv_omega)]

theorem Leads.or_flag {base b f : Byte} (h : Leads base b) (hf : flagOk base f = true) (x : Bool) :
    Leads base (b ||| flagBit x f) where
  self := by rw [hasBit_or, h.self, Bool.true_or]
  above k hk hlt := by rw [hasBit_or, h.above k hk hlt, hasBit_flagBit_above hf x hk hlt, Bool.false_or]

section
variable {p : Params} (h : Flags p)
include h

theorem commandOf_entryModeByte (l a : Bool) : commandOf p (entryModeByte p l a) = some (.entryModeSet l a) := by
  have lead : Leads 0x04 (entryModeByte p l a) := ((leads_base rfl).or_flag h.entryDir l).or_flag h.entryShift a
  have dir : hasBit (entryModeByte p l a) p.fEntryDir = l := by
    simp only [entryModeByte, hasBit_or, hasBit_base_flag h.entryDir rfl, hasBit_flagBit_flag h.entryDir,
      hasBit_flagBit_sibling h.entryShift a h.entryDir h.entry.symm, Bool.false_or, Bool.or_false]
  have shift : hasBit (entryModeByte p l a) p.fEntryShift = a := by
    simp only [entryModeByte, hasBit_or, hasBit_base_flag h.entryShift rfl, hasBit_flagBit_flag h.entryShift,
      hasBit_flagBit_sibling h.entryDir l h.entryShift h.entry, Bool.false_or]
  simp only [commandOf, lead.above 0x80 rfl (by decide), lead.above 0x40 rfl (by decide), lead.above 0x20 rfl (by decide),
    lead.above 0x10 rfl (by decide), lead.above 0x08 rfl (by decide), lead.self, dir, shift, Bool.false_eq_true, if_false, if_true]

theorem commandOf_displayControlByte (o c b : Bool) :
    commandOf p (displayControlByte p o c b) = some (.displayControl o c b) := by
  have lead : Leads 0x08 (displayControlByte p o c b) :=
    (((leads_base rfl).or_flag h.dispOn o).or_flag h.dispCursor c).or_flag h.dispBlink b
  have on : hasBit (displayControlByte p o c b) p.fDispOn = o := by
    simp only [displayControlByte, hasBit_or, hasBit_base_flag h.dispOn rfl, hasBit_flagBit_flag h.dispOn,
      hasBit_flagBit_sibling h.dispCursor c h.dispOn h.on_cursor.symm,
      hasBit_flagBit_sibling h.dispBlink b h.dispOn h.on_blink.symm, Bool.false_or, Bool.or_false]
  have cursor : hasBit (displayControlByte p o c b) p.fDispCursor = c := by
    simp only [displayControlByte, hasBit_or, hasBit_base_flag h.dispCursor rfl, hasBit_flagBit_flag h.dispCursor,
      hasBit_flagBit_sibling h.dispOn o h.dispCursor h.on_cursor,
      hasBit_flagBit_sibling h.dispBlink b h.dispCursor h.cursor_blink.symm, Bool.false_or, Bool.or_false]
  have blink : hasBit (displayControlByte p o c b) p.fDispBlink = b := by
    simp only [displayControlByte, hasBit_or, hasBit_base_flag h.dispBlink rfl, hasBit_flagBit_flag h.dispBlink,
      hasBit_flagBit_sibling h.dispOn o h.dispBlink h.on_blink,
      hasBit_flagBit_sibling h.dispCursor c h.dispBlink h.cursor_blink, Bool.false_or]
  simp only [commandOf, lead.above 0x80 rfl (by decide), lead.above 0x40 rfl (by decide), lead.above 0x20 rfl (by decide),
    lead.above 0x10 rfl (by decide), lead.self, on, cursor, blink, Bool.false_eq_true, if_false, if_true]

theorem commandOf_shiftByte (m r : Bool) : commandOf p (shiftByte p m r) = some (.cursorDisplayShift m r) := by
  have lead : Leads 0x10 (shiftByte p m r) := ((leads_base rfl).or_flag h.shiftDisplay m).or_flag h.shiftRight r
  have move : hasBit (shiftByte p m r) p.fShiftDisplay = m := by
    simp only [shiftByte, hasBit_or, hasBit_base_flag h.shiftDisplay rfl, hasBit_flagBit_flag h.shiftDisplay,
      hasBit_flagBit_sibling h.shiftRight r h.shiftDisplay h.shift.symm, Bool.false_or, Bool.or_false]
  have right : hasBit (shiftByte p m r) p.fShiftRight = r := by
    simp only [shiftByte, hasBit_or, hasBit_base_flag h.shiftRight rfl, hasBit_flagBit_flag h.shiftRight,
      hasBit_flagBit_sibling h.shiftDisplay m h.shiftRight h.shift, Bool.false_or]
  simp only [commandOf, lead.above 0x80 rfl (by decide), lead.above 0x40 rfl (by decide), lead.above 0x20 rfl (by decide),
    lead.self, move, right, Bool.false_eq_true, if_false, if_true]

theorem commandOf_functionSetByte (e t f : Bool) :
    commandOf p (functionSetByte p e t f) = some (.functionSet e t f) := by
  have lead : Leads 0x20 (functionSetByte p e t f) :=
    (((leads_base rfl).or_flag h.func8Bit e).or_flag h.func2Line t).or_flag h.funcTall f
  have bit : hasBit (functionSetByte p e t f) p.fFunc8Bit = e := by
    simp only [functionSetByte, hasBit_or, hasBit_base_flag h.func8Bit rfl, hasBit_flagBit_flag h.func8Bit,
      hasBit_flagBit_sibling h.func2Line t h.func8Bit h.bit_line.symm,
      hasBit_flagBit_sibling h.funcTall f h.func8Bit h.bit_tall.symm, Bool.false_or, Bool.or_false]
  have line : hasBit (functionSetByte p e t f) p.fFunc2Line = t := by
    simp only [functionSetByte, hasBit_or, hasBit_base_flag h.func2Line rfl, hasBit_flagBit_flag h.func2Line,
      hasBit_flagBit_sibling h.func8Bit e h.func2Line h.bit_line,
      hasBit_flagBit_sibling h.funcTall f h.func2Line h.line_tall.symm, Bool.false_or, Bool.or_false]
  have tall : hasBit (functionSetByte p e t f) p.fFuncTall = f := by
    simp only [functionSetByte, hasBit_or, hasBit_base_flag h.funcTall rfl, hasBit_flagBit_flag h.funcTall,
      hasBit_flagBit_sibling h.func8Bit e h.funcTall h.bit_tall,
      hasBit_flagBit_sibling h.func2Line t h.funcTall h.line_tall, Bool.false_or]
  simp only [commandOf, lead.above 0x80 rfl (by decide), lead.above 0x40 rfl (by decide), lead.self, bit, line, tall,
    Bool.false_eq_true, if_false, if_true]

end

/-- The location of a CGRAM-address byte, read back from its bits 5:3. -/
theorem commandOf_cgramAddressByte (p : Params) {location : Int} {b : Byte} (hb : cgramAddressByte location = some b) :
    commandOf p b = some (.setCgramAddr location) := by
  have read : ∀ n : Fin 8, let c : Byte := 0x40#8 ||| (BitVec.ofNat 8 n.val <<< 3)
      hasBit c 0x80 = false ∧ hasBit c 0x40 = true ∧ ((c >>> 3) &&& 0x07#8).toNat = n := by decide
  unfold cgramAddressByte cgramLocationOk at hb
  split at hb
  · rename_i hl
    simp only [Bool.and_eq_true, decide_eq_true_eq] at hl
    obtain ⟨n, rfl⟩ := Int.eq_ofNat_of_zero_le hl.1
    obtain ⟨h80, h40, hn⟩ := read ⟨n, by omega⟩
    cases hb
    simp only [Int.toNat_natCast, commandOf, h80, h40, hn, Bool.false_eq_true, if_false, if_true]
  · cases hb

/-- The offset of a DDRAM-address byte, read back from its bits 6:0. -/
theorem commandOf_ddramAddressByte (p : Params) {offset : Int} {b : Byte} (hb : ddramAddressByte offset = some b) :
    commandOf p b = some (.setDdramAddr offset) := by
  have read : ∀ n : Fin 128, let c : Byte := 0x80#8 ||| BitVec.ofNat 8 n.val
      hasBit c 0x80 = true ∧ (c &&& 0x7F#8).toNat = n := by decide
  unfold ddramAddressByte ddramOffsetOk at hb
  split at hb
  · rename_i hl
    simp only [Bool.and_eq_true, decide_eq_true_eq] at hl
    obtain ⟨n, rfl⟩ := Int.eq_ofNat_of_zero_le hl.1
    obtain ⟨h80, hn⟩ := read ⟨n, by omega⟩
    cases hb
    simp only [Int.toNat_natCast, commandOf, h80, hn, if_true]
  · cases hb

/-- The family and the operands of a command byte are those of the encoder call that returned it (R63). -/
theorem commandOf_commandByte {p : Params} (hw : p.wf = true) {i : Instr} {b : Byte} (hb : commandByte p i = some b) :
    commandOf p b = some i := by
  have h := flags_of_wf hw
  cases i <;> simp only [commandByte, Option.some.injEq, reduceCtorEq] at hb
  case clearDisplay => exact hb ▸ rfl
  case returnHome => exact hb ▸ rfl
  case entryModeSet l a => exact hb ▸ commandOf_entryModeByte h l a
  case displayControl o c b => exact hb ▸ commandOf_displayControlByte h o c b
  case cursorDisplayShift m r => exact hb ▸ commandOf_shiftByte h m r
  case functionSet e t f => exact hb ▸ commandOf_functionSetByte h e t f
  case setCgramAddr location => exact commandOf_cgramAddressByte p hb
  case setDdramAddr offset => exact commandOf_ddramAddressByte p hb

/-- The decoder reads an encoder's byte as the call that returned it. -/
theorem decodeCommand_commandByte {p : Params} (hw : p.wf = true) {i : Instr} {b : Byte} (hb : commandByte p i = some b) :
    decodeCommand p b = .ok i := by
  simp only [decodeCommand, commandOf_commandByte hw hb, hb, if_true]

end Sys2Proof.Machine
end

section
/-! SUPPORT. What the host operations other than INIT send, and what their bytes leave of the panel: the interface width
always, the entry mode but for SET_ENTRY_MODE, and the glyphs where only commands are sent. -/

namespace Sys2Proof.Machine

/-! ## One byte received -/

theorem receiveByte_data (cfg : Params) (n : Nat) (q : Panel) (v : Byte) :
    q.receiveByte cfg n true v = q.receiveData cfg n v := rfl

/-- A command byte does what the encoder call that returned it says (R48 (d), (e)). -/
theorem receiveByte_command {cfg : Params} (hw : cfg.wf = true) {c : Instr} {v : Byte} (hc : commandByte cfg c = some v)
    (n : Nat) (q : Panel) : q.receiveByte cfg n false v = q.receiveCommand n c := by
  simp only [Panel.receiveByte, decodeCommand_commandByte hw hc, Bool.false_eq_true, if_false]

@[simp] theorem receiveData_width (q : Panel) (cfg : Params) (n : Nat) (v : Byte) : (q.receiveData cfg n v).width = q.width := by
  unfold Panel.receiveData Panel.store
  split <;> rfl

/-- The commands that leave the interface width and the entry mode as they are. -/
def keepsModes : Instr → Bool
  | .clearDisplay => true
  | .returnHome => true
  | .displayControl _ _ _ => true
  | .cursorDisplayShift _ _ => true
  | .setCgramAddr _ => true
  | .setDdramAddr _ => true
  | _ => false

/-- What the panel keeps over a command. -/
structure KeepsOverCommand (q r : Panel) : Prop where
  width : r.width = q.width
  entry : r.entry = q.entry
  cgram : r.cgram = q.cgram

theorem receiveCommand_keeps {c : Instr} (hc : keepsModes c = true) (n : Nat) (q : Panel) :
    KeepsOverCommand q (q.receiveCommand n c) := by
  cases c <;> simp only [keepsModes, Bool.false_eq_true] at hc <;> exact ⟨rfl, rfl, rfl⟩

/-! ## The bytes of a host operation -/

/-- The host operations that send data bytes. -/
def writesData : Instr → Bool
  | .writeCharacter _ => true
  | .createCustomCharacter _ _ => true
  | .displayTextRow _ _ => true
  | .displayTextAt _ _ _ => true
  | .layoutText _ => true
  | _ => false

/-- The bytes a host operation other than INIT sends, with their register select. -/
inductive Sends (p : Params) : Instr → Bool → Byte → Prop
  | data {i : Instr} (v : Byte) (hi : writesData i = true) : Sends p i true v
  | command {i c : Instr} {v : Byte} (hc : keepsModes c = true) (hv : commandByte p c = some v) : Sends p i false v
  | entryMode {l a : Bool} (l' a' : Bool) : Sends p (.setEntryMode l a) false (entryModeByte p l' a')

section
variable {p : Params} (hw : p.wf = true) {i : Instr} {rs : Bool} {v : Byte} (h : Sends p i rs v) (n : Nat) (q : Panel)
include hw h

theorem Sends.width : (q.receiveByte p n rs v).width = q.width := by
  cases h with
  | data v hi => rw [receiveByte_data, receiveData_width]
  | command hc hv => rw [receiveByte_command hw hv, (receiveCommand_keeps hc n q).width]
  | entryMode l' a' =>
    rw [receiveByte_command hw (c := .entryModeSet l' a') rfl]
    rfl

theorem Sends.entry (hi : ∀ l a, i ≠ .setEntryMode l a) : (q.receiveByte p n rs v).entry = q.entry := by
  cases h with
  | data v hi => rw [receiveByte_data, receiveData_entry]
  | command hc hv => rw [receiveByte_command hw hv, (receiveCommand_keeps hc n q).entry]
  | entryMode _ _ => exact absurd rfl (hi _ _)

theorem Sends.cgram (hi : writesData i = false) : (q.receiveByte p n rs v).cgram = q.cgram := by
  cases h with
  | data v hd => rw [hi] at hd; cases hd
  | command hc hv => rw [receiveByte_command hw hv, (receiveCommand_keeps hc n q).cgram]
  | entryMode l' a' =>
    rw [receiveByte_command hw (c := .entryModeSet l' a') rfl]
    rfl

end

/-! ## The event lists of a host operation -/

/-- The event lists of the host operation `i`: waits, BLWRITEs, and SENDs of its bytes. -/
inductive OpActs (p : Params) (bl : Bool) (i : Instr) : List Act → Prop
  | nil : OpActs p bl i []
  | wait (ns : Nat) {rest : List Act} (h : OpActs p bl i rest) : OpActs p bl i (.wait ns :: rest)
  | send {rs : Bool} {v : Byte} (hv : Sends p i rs v) {rest : List Act} (h : OpActs p bl i rest) :
      OpActs p bl i (sendActs p v rs bl ++ rest)
  | blwrite {rest : List Act} (h : OpActs p bl i rest) : OpActs p bl i (blwriteActs p bl ++ rest)

theorem OpActs.append {p : Params} {bl : Bool} {i : Instr} {a b : List Act} (ha : OpActs p bl i a) (hb : OpActs p bl i b) :
    OpActs p bl i (a ++ b) := by
  induction ha with
  | nil => exact hb
  | wait ns _ ih => exact .wait ns ih
  | send hv _ ih => exact List.append_assoc .. ▸ .send hv ih
  | blwrite _ ih => exact .blwrite ih

/-- A plan that transmits, if anything, an event list of the host operation `i`. -/
def Plan.OfOp (p : Params) (bl : Bool) (i : Instr) : Plan → Prop
  | .go acts => OpActs p bl i acts
  | .raise _ => True
  | .outsideEncoder => True

theorem Plan.OfOp.append {p : Params} {bl : Bool} {i : Instr} {a b : Plan} (ha : a.OfOp p bl i) (hb : b.OfOp p bl i) :
    (a.append b).OfOp p bl i := by
  cases a with
  | go x =>
    cases b with
    | go y => exact OpActs.append ha hb
    | raise e => trivial
    | outsideEncoder => trivial
  | raise e => trivial
  | outsideEncoder => trivial

section
variable (s : State) (i : Instr)

theorem command_opActs {v : Byte} (hv : Sends s.cfg i false v) : OpActs s.cfg s.ds.backlightOn i (s.command v) :=
  .send hv .nil

theorem keepingCommand_opActs {c : Instr} {v : Byte} (hv : commandByte s.cfg c = some v) (hc : keepsModes c = true) :
    OpActs s.cfg s.ds.backlightOn i (s.command v) :=
  command_opActs s i (.command hc hv)

theorem dataAll_opActs (hi : writesData i = true) (bytes : List Byte) :
    OpActs s.cfg s.ds.backlightOn i (s.dataAll bytes) := by
  induction bytes with
  | nil => exact .nil
  | cons b rest ih => exact .append (.send (.data b hi) .nil) ih

theorem planCursorPosition_ofOp (column row : Int) : (planCursorPosition s column row).OfOp s.cfg s.ds.backlightOn i := by
  unfold planCursorPosition
  split
  · trivial
  · rename_i addr _
    cases hb : ddramAddressByte addr with
    | none => trivial
    | some b => exact (keepingCommand_opActs s i (c := .setDdramAddr addr) hb rfl).append .nil

theorem planCustomCharacter_ofOp (hi : writesData i = true) (location : Int) (bitmap : List Byte) :
    (planCustomCharacter s location bitmap).OfOp s.cfg s.ds.backlightOn i := by
  unfold planCustomCharacter
  split
  · trivial
  · split
    · trivial
    · cases hb : cgramAddressByte location with
      | none => trivial
      | some b => exact (keepingCommand_opActs s i (c := .setCgramAddr location) hb rfl).append (dataAll_opActs s i hi bitmap)

theorem planTextAt_ofOp (hi : writesData i = true) (text : List Byte) (row column : Int) :
    (planTextAt s text row column).OfOp s.cfg s.ds.backlightOn i := by
  unfold planTextAt
  repeat' split
  case h_1 hstart hpos =>
    exact (((keepingCommand_opActs s i (c := .setDdramAddr _) hstart rfl).append (dataAll_opActs s i hi _)).append
      (keepingCommand_opActs s i (c := .setDdramAddr _) hpos rfl)).append (dataAll_opActs s i hi text)
  all_goals trivial

theorem planRows_ofOp (hi : writesData i = true) (lines : List (List Byte)) (r : Nat) :
    (planRows s lines r).OfOp s.cfg s.ds.backlightOn i := by
  induction lines generalizing r with
  | nil => exact .nil
  | cons line rest ih => exact (planTextAt_ofOp s i hi line r 0).append (ih (r + 1))

theorem planLayoutText_ofOp (hi : writesData i = true) (text : List Byte) :
    (planLayoutText s text).OfOp s.cfg s.ds.backlightOn i := by
  unfold planLayoutText
  split
  · trivial
  · exact planRows_ofOp s i hi _ 0

theorem dc_opActs : OpActs s.cfg s.ds.backlightOn i (s.command s.dc) :=
  keepingCommand_opActs s i (c := .displayControl s.ds.displayOn s.ds.cursorVisible s.ds.cursorBlinking) rfl rfl

end

/-- What a host operation other than INIT and CLOSE plans to transmit. -/
theorem planOf_ofOp (u : State) {i : Instr} (hi : isOrdinaryHostOp i = true) :
    (planOf u i).OfOp u.cfg u.ds.backlightOn i := by
  cases i <;> simp only [isOrdinaryHostOp, Bool.false_eq_true] at hi
  case setBacklight on => exact .blwrite .nil
  case setDisplay on => exact dc_opActs ..
  case setCursorVisible on => exact dc_opActs ..
  case setCursorBlinking on => exact dc_opActs ..
  case setEntryMode l a => exact command_opActs u _ (.entryMode ..)
  case clear => exact (keepingCommand_opActs u _ (c := .clearDisplay) rfl rfl).append (.wait _ .nil)
  case home => exact (keepingCommand_opActs u _ (c := .returnHome) rfl rfl).append (.wait _ .nil)
  case shiftDisplay right => exact keepingCommand_opActs u _ (c := .cursorDisplayShift true right) rfl rfl
  case shiftCursor right => exact keepingCommand_opActs u _ (c := .cursorDisplayShift false right) rfl rfl
  case setCursorPosition column row => exact planCursorPosition_ofOp ..
  case writeCharacter code => exact .send (.data code rfl) .nil
  case createCustomCharacter location bitmap => exact planCustomCharacter_ofOp u _ rfl ..
  case displayTextRow text row => exact planTextAt_ofOp u _ rfl ..
  case displayTextAt text row column => exact planTextAt_ofOp u _ rfl ..
  case layoutText text => exact planLayoutText_ofOp u _ rfl ..

/-! ## In phase through traffic answered Ok -/

/-- Being in phase depends on the panel's interface, the parameters and the outputs alone. -/
theorem InPhase.congr {s t : State} (h : InPhase s) (hp : t.panel = s.panel) (hc : t.cfg = s.cfg)
    (ho : t.outputs = s.outputs) : InPhase t :=
  ⟨hp ▸ h.width, hp ▸ h.phase, by rw [hc, ho]; exact h.enable⟩

/-- A SEND answered Ok leaves the panel in phase unless its byte changes the interface width (R44). -/
theorem inPhase_applyOk_send {s : State} (hw : s.cfg.wf = true) (hp : InPhase s) (v : Byte) (rs bl : Bool)
    (hq : (s.panel.receiveByte s.cfg (s.ticks + 5) rs v).width = .four) : InPhase (applyOk (sendActs s.cfg v rs bl) s) := by
  obtain ⟨hpanel, -, hen⟩ := applyOk_send hw hp v rs bl
  refine ⟨by rw [hpanel, hq], by rw [hpanel, receiveByte_phase hp.phase], ?_⟩
  rwa [(applyOk_untouched _ _).cfg]

/-- A BLWRITE answered Ok makes no strobe where the enable line is low (R91). -/
theorem applyOk_blwrite_panel {s : State} (he : enHigh s.cfg s.outputs = false) (bl : Bool) :
    (applyOk (blwriteActs s.cfg bl) s).panel = s.panel := by
  simp [applyOk, blwriteActs, Panel.outputsChange, isStrobe, he]

/-- The event list of a host operation, answered Ok with the panel in phase, leaves it in phase, and keeps whatever of the
panel the operation's bytes keep. -/
theorem OpActs.keeps {p : Params} {bl : Bool} {i : Instr} {acts : List Act} (ha : OpActs p bl i acts) (hw : p.wf = true)
    {Q : Panel → Prop} (hQ : ∀ q n rs v, Sends p i rs v → Q q → Q (q.receiveByte p n rs v)) {s : State} (hs : s.cfg = p)
    (hp : InPhase s) (hq : Q s.panel) : InPhase (applyOk acts s) ∧ Q (applyOk acts s).panel := by
  induction ha generalizing s with
  | nil => exact ⟨hp, hq⟩
  | wait ns _ ih => exact ih (s := s.emit (.wait ns)) hs (hp.congr rfl rfl rfl) hq
  | send hv _ ih =>
    subst hs
    rw [applyOk_append]
    refine ih (applyOk_untouched _ _).cfg (inPhase_applyOk_send hw hp _ _ _ ((hv.width hw _ _).trans hp.width)) ?_
    rw [(applyOk_send hw hp _ _ _).1]
    exact hQ _ _ _ _ hv hq
  | blwrite _ ih =>
    subst hs
    rw [applyOk_append]
    have hpanel := applyOk_blwrite_panel hp.enable bl
    refine ih (applyOk_untouched _ _).cfg ⟨hpanel ▸ hp.width, hpanel ▸ hp.phase, blwriteByte_en (masks_of_wf hw) bl⟩ ?_
    rwa [hpanel]

/-! ## The host operations -/

theorem isTransmission_of_ordinary {i : Instr} (hi : isOrdinaryHostOp i = true) : isTransmission i = true := by
  cases i <;> simp only [isOrdinaryHostOp, Bool.false_eq_true] at hi <;> rfl

/-- No write of the operation failed. -/
def NoFailure (t : State) : Prop := t.result ≠ some .transportError ∨ t.xfault = false

/-- Where the traffic failed, XFAULT is set (R24). -/
def Traffic.FailureRecorded (t : Traffic) : Prop := t.ok = false → t.state.xfault = true

theorem perform_failureRecorded (acts : List Act) (s : State) : (perform acts s).FailureRecorded := by
  intro hok
  rw [perform_xfault, hok, Bool.not_false, Bool.or_true]

theorem report_noFailure {t : Traffic} (hf : t.FailureRecorded) (h : NoFailure t.report) : t.ok = true := by
  cases hok : t.ok
  · simp [NoFailure, Traffic.report, hok, hf hok] at h
  · rfl

@[simp] theorem report_panel (t : Traffic) : t.report.panel = t.state.panel := by
  unfold Traffic.report
  split <;> rfl

theorem InPhase.report {t : Traffic} (h : InPhase t.state) : InPhase t.report := by
  unfold Traffic.report
  split <;> exact h.congr rfl rfl rfl

section
variable {i : Instr} {s : State} {Q : Panel → Prop} (hw : s.cfg.wf = true)
  (hQ : ∀ q n rs v, Sends s.cfg i rs v → Q q → Q (q.receiveByte s.cfg n rs v)) (hp : InPhase s) (hq : Q s.panel)
include hw hQ hp hq

/-- A host operation's event list, run without a failure once DS is written. -/
theorem perform_keeps_panel {ds : DisplayState} {acts : List Act} (ha : OpActs s.cfg ds.backlightOn i acts)
    (hok : (perform acts (s.withDs ds)).ok = true) :
    InPhase (perform acts (s.withDs ds)).state ∧ Q (perform acts (s.withDs ds)).state.panel := by
  rw [perform_ok hok]
  exact ha.keeps hw hQ rfl (hp.congr rfl rfl rfl) hq

/-- A host operation other than INIT in which no write failed leaves the panel in phase, and keeps whatever of the panel its
bytes keep. -/
theorem exec_keeps_panel (hi : isOrdinaryHostOp i = true ∨ i = .close) {t : State} (h : exec i s = .next t)
    (ht : NoFailure t) : InPhase t ∧ Q t.panel := by
  rcases hi with hi | rfl
  · rw [exec_transmission (isTransmission_of_ordinary hi)] at h
    obtain ⟨acts, hgo, rfl⟩ | ⟨e, -, rfl⟩ := runPlan_next (whenOpen_next h).2
    · have ha := planOf_ofOp (s.withDs (newDs s.ds i)) hi
      rw [hgo] at ha
      obtain ⟨hp', hq'⟩ := perform_keeps_panel hw hQ hp hq (ds := newDs s.ds i) ha
        (report_noFailure (perform_failureRecorded _ _) ht)
      exact ⟨hp'.report, by rwa [report_panel]⟩
    · exact ⟨hp.congr rfl rfl rfl, hq⟩
  · obtain ⟨-, rfl⟩ | ⟨-, rfl⟩ := execClose_next h
    · exact ⟨hp.congr rfl rfl rfl, hq⟩
    · have hok : (closeTraffic s).ok = true :=
        report_noFailure (fun hf => by simpa [closeTraffic] using perform_failureRecorded _ _ hf) ht
      obtain ⟨hp', hq'⟩ := perform_keeps_panel hw hQ hp hq (dc_opActs (s.setDisplayOn false) .close) hok
      exact ⟨InPhase.report (t := closeTraffic s) (hp'.congr rfl rfl rfl), by rwa [report_panel]⟩

end

end Sys2Proof.Machine
end

section
/-! PROOFS. Nibble phase (20_memory.md R44) over the host's programs. -/

namespace Sys2Proof.Machine

/-! ## INIT -/

theorem andThen_failureRecorded {t : Traffic} (h : t.FailureRecorded) {f : State → Traffic}
    (hf : ∀ u, (f u).FailureRecorded) : (t.andThen f).FailureRecorded := by
  obtain ⟨ok, u⟩ := t
  cases ok
  · exact h
  · exact hf u

/-- Traffic whose second part was answered Ok went through its first part. -/
theorem andThen_of_ok {t : Traffic} {f : State → Traffic} (h : (t.andThen f).ok = true) :
    t.ok = true ∧ t.andThen f = f t.state := by
  obtain ⟨ok, u⟩ := t
  cases ok
  · cases h
  · exact ⟨rfl, rfl⟩

theorem initTraffic_failureRecorded (s : State) : (initTraffic s).FailureRecorded :=
  andThen_failureRecorded
    (andThen_failureRecorded
      (andThen_failureRecorded (perform_failureRecorded _ _) fun _ => perform_failureRecorded _ _)
      fun _ => perform_failureRecorded _ _)
    fun _ => nofun

/-- An INIT answered Ok ends with the backlight write and the panel of R212. -/
theorem initTraffic_of_ok {s : State} (hok : (initTraffic s).ok = true) :
    ∃ u, (initBacklight u).ok = true ∧ initTraffic s = initPanel (initBacklight u).state := by
  obtain ⟨hbl, hinit⟩ := andThen_of_ok hok
  obtain ⟨-, hlast⟩ := andThen_of_ok hbl
  rw [hlast] at hbl
  exact ⟨_, hbl, by rw [initTraffic, hinit, hlast]⟩

/-- The backlight write leaves the enable line low (R91). -/
theorem initTraffic_inPhase {s : State} (hok : (initTraffic s).ok = true) (hw : (initTraffic s).state.cfg.wf = true) :
    InPhase (initTraffic s).state := by
  obtain ⟨u, hbl, hfin⟩ := initTraffic_of_ok hok
  have hout : (initBacklight u).state.outputs = blwriteByte u.cfg true := perform_outputs hbl
  have hcfg : (initBacklight u).state.cfg = u.cfg := (perform_untouched _ (u.setBacklightOn true)).cfg
  rw [hfin] at hw ⊢
  refine ⟨rfl, rfl, ?_⟩
  simp only [initPanel, hcfg, hout] at hw ⊢
  exact blwriteByte_en (masks_of_wf hw) true

@[simp] theorem report_cfg (t : Traffic) : t.report.cfg = t.state.cfg := by
  unfold Traffic.report
  split <;> rfl

/-! ## Every instruction of a host program -/

/-- The parameters are legal, and the geometry is in an open session: `PhaseKept` without the panel. -/
structure GeometryKept (s : State) : Prop where
  params   : s.cfg.wf = true
  geometry : s.session = .opened → geometryOk s.rows s.columns = true

theorem PhaseKept.geometryKept {s : State} (h : PhaseKept s) : GeometryKept s := ⟨h.params, h.geometry⟩

theorem GeometryKept.perform {s : State} (h : GeometryKept s) (acts : List Act) : GeometryKept (perform acts s).state := by
  have hu := perform_untouched acts s
  refine ⟨hu.cfg ▸ h.params, ?_⟩
  rw [hu.session, hu.rows, hu.columns]
  exact h.geometry

theorem geometryKept_keptByUpdates : KeptByUpdates GeometryKept where
  withDs _ _ h := ⟨h.params, h.geometry⟩
  answer _ _ h := ⟨h.params, h.geometry⟩
  encoderReturns _ _ h := ⟨h.params, h.geometry⟩
  closeSession _ h := ⟨h.params, nofun⟩
  initialised _ h := ⟨h.params, h.geometry⟩
  perform _ _ acts _ h := h.perform acts

theorem execInit_phaseKept {rows columns : Int} {s t : State} (hs : PhaseKept s) (h : execInit rows columns s = .next t) :
    PhaseKept t := by
  obtain ⟨hw, hg⟩ : GeometryKept t := execInit_kept geometryKept_keptByUpdates h fun hg =>
    GeometryKept.perform ⟨by simpa using hs.params, fun _ => geometryOk_toNat hg⟩ _
  refine ⟨hw, hg, fun _ hx => ?_⟩
  obtain ⟨-, rfl⟩ := execInit_next h
  have hok := report_noFailure (initTraffic_failureRecorded _) (.inr hx)
  exact (initTraffic_inPhase hok (by simpa using hw)).report

/-- But for INIT, an update opens no session. -/
theorem openedBefore_keptByUpdates (s : State) :
    KeptByUpdates fun t => t.session = .opened → s.session = .opened where
  withDs _ _ h := h
  answer _ _ h := h
  encoderReturns _ _ h := h
  closeSession _ _ := nofun
  initialised _ h := h
  perform t _ acts _ h ht := h ((perform_untouched acts t).session ▸ ht)

theorem isOrdinaryHostOp_of_hostOp {i : Instr} (h : isHostOp i = true) (hi : ∀ rows columns, i ≠ .init rows columns) :
    isOrdinaryHostOp i = true ∨ i = .close := by
  cases i <;> simp_all [isHostOp, isOrdinaryHostOp]

/-- A host operation other than INIT keeps the panel in phase where no write has failed: in a session that it leaves open it
found the session open, and XFAULT clear. -/
theorem exec_phaseKept {i : Instr} (hh : isHostOp i = true) (hi : ∀ rows columns, i ≠ .init rows columns) {s t : State}
    (hs : PhaseKept s) (h : exec i s = .next t) : PhaseKept t := by
  obtain ⟨hw, hg⟩ := exec_kept geometryKept_keptByUpdates hi h hs.geometryKept
  refine ⟨hw, hg, fun ho hx => ?_⟩
  have ho' : s.session = .opened := exec_kept (openedBefore_keptByUpdates s) hi h id ho
  have hx' : s.xfault = false := by
    obtain ⟨ev, -, hset⟩ := exec_faultsRecorded hi h
    simp only [hx, Bool.false_eq_true, false_iff, not_or, Bool.not_eq_true] at hset
    exact hset.1
  exact (exec_keeps_panel (Q := fun _ => True) hs.params (fun _ _ _ _ _ h => h) (hs.inPhase ho' hx') trivial
    (isOrdinaryHostOp_of_hostOp hh hi) h (.inr hx)).1

theorem takeRequest_phaseKept {s u : State} {r : Request} (hs : PhaseKept s) (h : s.takeRequest = some (r, u)) :
    PhaseKept u := by
  obtain ⟨c, -, -, rfl⟩ | ⟨q, rest, -, -, -, rfl⟩ := takeRequest_some h
  · exact ⟨hs.params, hs.geometry, fun ho hx => (hs.inPhase ho hx).congr rfl rfl rfl⟩
  · exact ⟨hs.params, hs.geometry, fun ho hx => (hs.inPhase ho hx).congr rfl rfl rfl⟩

/-- Settles O50: without an inner call a step waits or executes a host operation. -/
theorem hostProgramsKeepNibblePhase : Obligations.HostProgramsKeepNibblePhase := by
  intro s t hn hs h
  obtain ⟨-, rfl⟩ | ⟨r, u, i, hu, hd, he⟩ := step_next h
  · exact ⟨hs, hn⟩
  · have hsu := takeRequest_phaseKept hs hu
    obtain ⟨c, hc, -, -⟩ | ⟨q, rest, -, -, rfl, rfl⟩ := takeRequest_some hu
    · simp [hn] at hc
    · refine ⟨?_, (exec_sameRequests he).innerCall.trans hn⟩
      by_cases hi : ∃ rows columns, i = .init rows columns
      · obtain ⟨rows, columns, rfl⟩ := hi
        exact execInit_phaseKept hsu he
      · exact exec_phaseKept (decodeHost_isHostOp hd) (fun r c hrc => hi ⟨r, c, hrc⟩) hsu he

end Sys2Proof.Machine
end

section
/-! PROOFS. What the commands of the host operations leave of the panel: the glyphs (20_memory.md R46) and, but for
SET_ENTRY_MODE, the entry mode (R48 (c)). -/

namespace Sys2Proof.Machine

/-- Settles O58: none of these operations sends data. -/
theorem commandsKeepTheGlyphs : Obligations.CommandsKeepTheGlyphs := by
  intro i s t hu hp hi h ht a
  have hcmd : writesData i = false ∧ (isOrdinaryHostOp i = true ∨ i = .close) := by
    rcases hi with ⟨_, rfl⟩ | ⟨_, rfl⟩ | ⟨_, rfl⟩ | ⟨_, rfl⟩ | ⟨_, _, rfl⟩ | rfl | rfl | rfl | ⟨_, rfl⟩ | ⟨_, rfl⟩ |
      ⟨_, _, rfl⟩ <;> simp [writesData, isOrdinaryHostOp]
  obtain ⟨hdata, hop⟩ := hcmd
  obtain ⟨-, hg⟩ := exec_keeps_panel (Q := fun q => q.cgram = s.panel.cgram) hu.params
    (fun q n _ _ hv hq => (hv.cgram hu.params n q hdata).trans hq) hp rfl hop h (.inl ht)
  rw [hg]

theorem exec_keeps_entry {i : Instr} (hi : isOrdinaryHostOp i = true ∨ i = .close) (hne : ∀ l a, i ≠ .setEntryMode l a)
    {s t : State} (hw : s.cfg.wf = true) (hp : InPhase s) (h : exec i s = .next t) (ht : NoFailure t) :
    t.panel.entry = s.panel.entry :=
  (exec_keeps_panel (Q := fun q => q.entry = s.panel.entry) hw (fun q n _ _ hv hq => (hv.entry hw n q hne).trans hq) hp rfl hi
    h ht).2

end Sys2Proof.Machine
end

section
/-! SUPPORT. One byte sent and answered Ok, as a host operation sends it: the operation completes, the panel has received
that byte, and the block is ready for the next operation. -/

namespace Sys2Proof.Machine

/-! ## An event list answered Ok -/

theorem Usable.applyOk {s : State} (h : Usable s) (acts : List Act) : Usable (applyOk acts s) := by
  have hu := applyOk_untouched acts s
  refine ⟨hu.cfg ▸ h.params, hu.session ▸ h.opened, ?_⟩
  rw [hu.rows, hu.columns]
  exact h.geometry

theorem Usable.returnOk {s : State} (h : Usable s) : Usable s.returnOk := ⟨h.params, h.opened, h.geometry⟩

theorem OkFor_applyOk {s : State} {acts : List Act} {k : Nat} (h : OkFor s (countWrites acts + k)) :
    OkFor (applyOk acts s) k :=
  OkFor_drop h (applyOk_sinkAnswers acts s)

/-! ## One byte -/

/-- A host operation that sent the one byte `v` in `s` has ended in `t`: Ok, with `k` more Ok answers to come. -/
structure Received (s : State) (rs : Bool) (v : Byte) (k : Nat) (t : State) : Prop where
  result  : t.result = some .ok
  usable  : Usable t
  inPhase : InPhase t
  answers : OkFor t k
  panel   : t.panel = s.panel.receiveByte s.cfg (s.ticks + 5) rs v

section
variable {s : State} (hu : Usable s) (hp : InPhase s) {k : Nat} (hk : OkFor s (6 + k))
include hu hp hk

/-- A SEND of a byte that keeps the interface width, and a wait if any after it. -/
theorem transmit_received {rs : Bool} {v : Byte} (hq : (s.panel.receiveByte s.cfg (s.ticks + 5) rs v).width = .four)
    {acts : List Act} {wait : Option Nat} (ha : acts = sendActs s.cfg v rs s.ds.backlightOn ++ wait.toList.map .wait) :
    ∃ t, transmit s acts = .next t ∧ Received s rs v k t := by
  have hn : countWrites acts = 6 := by cases wait <;> simp [ha, countWrites_append, countWrites]
  refine ⟨_, transmit_ok (by omega) hk, rfl, (hu.applyOk acts).returnOk, ?_, OkFor_applyOk (acts := acts) (by rwa [hn]), ?_⟩
  · have hphase := inPhase_applyOk_send hu.params hp v rs s.ds.backlightOn hq
    rw [ha, applyOk_append]
    generalize applyOk (sendActs s.cfg v rs s.ds.backlightOn) s = t at hphase
    cases wait <;> exact hphase.congr rfl rfl rfl
  · obtain ⟨hpanel, -, -⟩ := applyOk_send hu.params hp v rs s.ds.backlightOn
    rw [← hpanel, ha, applyOk_append]
    generalize applyOk (sendActs s.cfg v rs s.ds.backlightOn) s = t
    cases wait <;> rfl

theorem exec_writeCharacter_received (code : Byte) :
    ∃ t, exec (.writeCharacter code) s = .next t ∧ Received s true code k t := by
  rw [show exec (.writeCharacter code) s = _ from whenOpen_opened _ hu.opened]
  exact transmit_received hu hp hk (wait := none) (by rw [receiveByte_data, receiveData_width, hp.width])
    (List.append_nil _).symm

/-- The same for a command that keeps the modes. -/
theorem transmit_command_received {c : Instr} (hc : keepsModes c = true) {v : Byte} (hv : commandByte s.cfg c = some v)
    {acts : List Act} {wait : Option Nat} (ha : acts = s.command v ++ wait.toList.map .wait) :
    ∃ t, transmit s acts = .next t ∧ Received s false v k t :=
  transmit_received hu hp hk
    (by rw [receiveByte_command hu.params hv, (receiveCommand_keeps hc _ _).width, hp.width]) ha

end

/-! ## The memories over a data byte -/

theorem Memory.read_write (m : Memory) (a : Nat) (v : Byte) (a' : Nat) :
    Memory.read (Memory.write m a v) a' = if a' = a then some v else Memory.read m a' := by
  split
  · rename_i h
    rw [h, Memory.read_write_same]
  · rename_i h
    exact Memory.read_write_other m a a' v h

section
variable {q : Panel} (cfg : Params) (n : Nat) (v : Byte)

theorem receiveData_of_ddram {a : DdramAddr} (ha : q.address = .ddram a) :
    q.receiveData cfg n v = { q with
      ddram := Memory.write q.ddram a.toNat v
      address := moveAddr (goesUp cfg.panelUp q.entry) n (.ddram a) } := by
  simp only [Panel.receiveData, Panel.store, ha]

theorem receiveData_of_cgram {a : CgramAddr} (ha : q.address = .cgram a) :
    q.receiveData cfg n v = { q with
      cgram := Memory.write q.cgram a.toNat v
      address := moveAddr (goesUp cfg.panelUp q.entry) n (.cgram a) } := by
  simp only [Panel.receiveData, Panel.store, ha]

end

theorem moveAddr_ddram_down (n : Nat) {a : DdramAddr} (h : a ≠ 0) : moveAddr false n (.ddram a) = .ddram (a - 1) := by
  simp only [moveAddr, if_neg h, Bool.false_eq_true, if_false]

theorem moveAddr_cgram_down (n : Nat) {a : CgramAddr} (h : a ≠ 0) : moveAddr false n (.cgram a) = .cgram (a - 1) := by
  simp only [moveAddr, if_neg h, Bool.false_eq_true, if_false]

/-! ## Data bytes one after another -/

/-- The panel after data bytes received in order, from tick `n` on. -/
def Panel.receiveAll (cfg : Params) : Nat → Panel → List Byte → Panel
  | _, q, [] => q
  | n, q, b :: rest => Panel.receiveAll cfg (n + 6) (q.receiveData cfg (n + 5) b) rest

theorem countWrites_dataAll (s : State) (bytes : List Byte) : countWrites (s.dataAll bytes) = 6 * bytes.length := by
  induction bytes with
  | nil => rfl
  | cons b rest ih =>
    rw [State.dataAll, countWrites_append, ih, State.data, countWrites_send, List.length_cons, Nat.mul_succ, Nat.add_comm]

/-- Data bytes sent and answered Ok, with the parameters and the backlight bit of `s`, from a state `t` in phase. -/
theorem applyOk_dataAll {s t : State} (hw : t.cfg.wf = true) (hc : t.cfg = s.cfg) (hp : InPhase t) (bytes : List Byte) :
    InPhase (applyOk (s.dataAll bytes) t) ∧
      (applyOk (s.dataAll bytes) t).panel = t.panel.receiveAll s.cfg t.ticks bytes := by
  induction bytes generalizing t with
  | nil => exact ⟨hp, rfl⟩
  | cons b rest ih =>
    have hq : (t.panel.receiveByte t.cfg (t.ticks + 5) true b).width = .four := by
      rw [receiveByte_data, receiveData_width, hp.width]
    have hphase := inPhase_applyOk_send hw hp b true s.ds.backlightOn hq
    have hcfg := (applyOk_untouched (sendActs t.cfg b true s.ds.backlightOn) t).cfg
    obtain ⟨hpanel, hticks, -⟩ := applyOk_send hw hp b true s.ds.backlightOn
    obtain ⟨hphase', hpanel'⟩ := ih (by rwa [hcfg]) (hcfg.trans hc) hphase
    rw [State.dataAll, applyOk_append, State.data, ← hc]
    exact ⟨hphase', by rw [hpanel', hpanel, hticks, hc]; rfl⟩

/-- A command that keeps the modes, then data bytes, likewise. -/
theorem applyOk_command_dataAll {s t : State} (hw : t.cfg.wf = true) (hcfg : t.cfg = s.cfg) (hp : InPhase t) {c : Instr}
    (hc : keepsModes c = true) {v : Byte} (hv : commandByte s.cfg c = some v) (bytes : List Byte) :
    InPhase (applyOk (s.command v ++ s.dataAll bytes) t) ∧
      (applyOk (s.command v ++ s.dataAll bytes) t).panel =
        (t.panel.receiveCommand (t.ticks + 5) c).receiveAll s.cfg (t.ticks + 6) bytes := by
  rw [← hcfg] at hv
  have hbyte := receiveByte_command hw hv (t.ticks + 5) t.panel
  have hphase := inPhase_applyOk_send hw hp v false s.ds.backlightOn
    (by rw [hbyte, (receiveCommand_keeps hc _ _).width, hp.width])
  obtain ⟨hpanel, hticks, -⟩ := applyOk_send hw hp v false s.ds.backlightOn
  have hsame := (applyOk_untouched (sendActs t.cfg v false s.ds.backlightOn) t).cfg
  obtain ⟨hphase', hpanel'⟩ := applyOk_dataAll (by rwa [hsame]) (hsame.trans hcfg) hphase bytes
  rw [applyOk_append, State.command, ← hcfg]
  exact ⟨hphase', by rw [hpanel', hpanel, hticks, hbyte, hcfg]⟩

/-- Data bytes received in CGRAM with the address going up fill the addresses from `k` on, and nothing else. -/
theorem receiveAll_cgram {cfg : Params} (bytes : List Byte) (n : Nat) {q : Panel} {k : Nat}
    (hup : goesUp cfg.panelUp q.entry = true) (ha : bytes ≠ [] → q.address = .cgram (BitVec.ofNat 6 k))
    (hk : k + bytes.length ≤ 64) :
    (q.receiveAll cfg n bytes).ddram = q.ddram ∧
    ∀ a, Memory.read (q.receiveAll cfg n bytes).cgram a =
      if k ≤ a ∧ a < k + bytes.length then bytes[a - k]? else Memory.read q.cgram a := by
  induction bytes generalizing n q k with
  | nil => exact ⟨rfl, fun a => by rw [if_neg (by simp)]; rfl⟩
  | cons b rest ih =>
    rw [List.length_cons] at hk
    have hfirst := receiveData_of_cgram cfg (n + 5) b (ha (List.cons_ne_nil _ _))
    have hk6 : (BitVec.ofNat 6 k).toNat = k := by rw [BitVec.toNat_ofNat]; omega
    have hnext : rest ≠ [] → (q.receiveData cfg (n + 5) b).address = .cgram (BitVec.ofNat 6 (k + 1)) := fun hne => by
      have hlen := List.length_pos_iff.2 hne
      rw [hfirst, hup, moveAddr_cgram_up _ (by bv_omega), BitVec.ofNat_add]
      rfl
    obtain ⟨hd, hc⟩ := ih (n + 6) (q := q.receiveData cfg (n + 5) b) (by rwa [receiveData_entry]) hnext (by omega)
    refine ⟨by rw [Panel.receiveAll, hd, hfirst], fun a => ?_⟩
    rw [Panel.receiveAll, hc, hfirst]
    simp only [hk6, Memory.read_write, List.length_cons]
    rcases Nat.lt_trichotomy a k with hlt | rfl | hgt
    · rw [if_neg (by omega), if_neg (by omega), if_neg (by omega)]
    · rw [if_neg (by omega), if_pos rfl, if_pos (by omega), Nat.sub_self, List.getElem?_cons_zero]
    · obtain ⟨j, rfl⟩ := Nat.exists_eq_add_of_lt hgt
      have hj : k + j + 1 - k = j + 1 ∧ k + j + 1 - (k + 1) = j := by omega
      rw [hj.1, hj.2, List.getElem?_cons_succ]
      simp only [show k + j + 1 ≠ k by omega, if_false]
      congr 1
      simp only [eq_iff_iff]
      omega

end Sys2Proof.Machine
end

section
/-! PROOFS. Single operations on the panel (20_memory.md R48): a data byte stored, the cursor moved, the entry mode told, a
custom character filled in. -/

namespace Sys2Proof.Machine

/-! ## A data byte -/

/-- Settles O52: the panel receives one data byte, in the memory its address points into. -/
theorem writeCharacterStoresOneByte : Obligations.WriteCharacterStoresOneByte := by
  intro s code hu hp hk
  obtain ⟨t, he, ht⟩ := exec_writeCharacter_received hu hp (k := 0) hk code
  have hpanel := ht.panel
  rw [receiveByte_data] at hpanel
  refine ⟨t, he, ht.result, ht.inPhase, fun a ha => ?_, fun a ha => ?_⟩
  · rw [receiveData_of_ddram _ _ _ ha] at hpanel
    rw [hpanel]
    refine ⟨Memory.read_write _ _ _, fun _ => rfl, moveAddr_ddram .., fun hup hne => ?_, fun hdown hne => ?_⟩
    · rw [hup, moveAddr_ddram_up _ hne]
    · rw [hdown, moveAddr_ddram_down _ hne]
  · rw [receiveData_of_cgram _ _ _ ha] at hpanel
    rw [hpanel]
    refine ⟨Memory.read_write _ _ _, fun _ => rfl, moveAddr_cgram .., fun hup hne => ?_, fun hdown hne => ?_⟩
    · rw [hup, moveAddr_cgram_up _ hne]
    · rw [hdown, moveAddr_cgram_down _ hne]

/-! ## The cursor -/

/-- The bases of R25 are the row offsets. -/
theorem RowBase.rowOffset_toNat {row : Int} {base : Nat} (h : RowBase row base) : 0 ≤ row ∧ rowOffset row.toNat = base := by
  rcases h with ⟨rfl, rfl⟩ | ⟨rfl, rfl⟩ | ⟨rfl, rfl⟩ | ⟨rfl, rfl⟩ <;> decide

/-- No cell of a legal geometry, nor the one past a row's end, lies past the last DDRAM address (R211). -/
theorem RowBase.add_le {s : State} (hg : geometryOk s.rows s.columns = true) {row : Int} {base : Nat} (hb : RowBase row base)
    (hr : row < s.rows) : base + s.columns ≤ 127 := by
  simp only [geometryOk, Bool.and_eq_true, decide_eq_true_eq, Int.toNat_natCast] at hg
  obtain ⟨⟨⟨h1, h4⟩, -⟩, hc⟩ := hg
  obtain h | h | h | h : s.rows = 1 ∨ s.rows = 2 ∨ s.rows = 3 ∨ s.rows = 4 := by omega
  all_goals
    simp only [h, maxCol] at hr hc
    rcases hb with ⟨rfl, rfl⟩ | ⟨rfl, rfl⟩ | ⟨rfl, rfl⟩ | ⟨rfl, rfl⟩ <;> omega

theorem ddramAddressByte_of_le {n : Nat} (h : n ≤ 127) : ddramAddressByte n = some (0x80#8 ||| BitVec.ofNat 8 n) := by
  have hok : ddramOffsetOk n = true := by
    simp only [ddramOffsetOk, Bool.and_eq_true, decide_eq_true_eq]
    omega
  rw [ddramAddressByte, if_pos hok, Int.toNat_natCast]

/-- The mapper on a cell of the display or one past a row's end (R141). -/
theorem ddramOf_cell {s : State} {row : Int} {base column : Nat} (hb : RowBase row base) (hr : row < s.rows)
    (hc : column ≤ s.columns) : ddramOf s column row = .ok ((base + column : Nat) : Int) := by
  obtain ⟨h0, hoff⟩ := hb.rowOffset_toNat
  have hrow : rowInRange s row = true := by simp [rowInRange, h0, hr]
  have hcol : columnInRange s column = true := by simp [columnInRange, hc]
  simp [ddramOf, hrow, hcol, cellAddress, hoff]

/-- Settles O53: the one command sent is that of the mapped address. -/
theorem setCursorPositionMovesThePanelCursor : Obligations.SetCursorPositionMovesThePanelCursor := by
  intro s row base column hu hp hk hb hr hc
  have hle : base + column ≤ 127 := by
    have := hb.add_le hu.geometry hr
    omega
  have hv : commandByte s.cfg (.setDdramAddr (base + column : Nat)) = some (0x80#8 ||| BitVec.ofNat 8 (base + column)) :=
    ddramAddressByte_of_le hle
  have hplan : planCursorPosition s column row = .go (s.command (0x80#8 ||| BitVec.ofNat 8 (base + column)) ++ []) := by
    simp only [planCursorPosition, ddramOf_cell hb hr hc, ddramAddressByte_of_le hle, addressThen]
  obtain ⟨t, he, ht⟩ := transmit_command_received hu hp (k := 0) hk (c := .setDdramAddr (base + column : Nat)) rfl hv
    (wait := none) rfl
  have hpanel := ht.panel
  rw [receiveByte_command hu.params hv] at hpanel
  refine ⟨t, ?_, ht.result, ht.inPhase, ?_⟩
  · rw [show exec (.setCursorPosition column row) s = _ from whenOpen_opened _ hu.opened, hplan]
    exact he
  · rw [hpanel]
    exact ⟨rfl, fun _ => rfl, fun _ => rfl⟩

/-- CLEAR and HOME, answered Ok, send their one command and leave the panel homed (R48 (d), log 11). -/
theorem exec_clearOrHome {i : Instr} (hi : i = .clear ∨ i = .home) {s : State} (hu : Usable s) (hp : InPhase s) {k : Nat}
    (hk : OkFor s (6 + k)) :
    ∃ t, exec i s = .next t ∧ t.result = some .ok ∧ Usable t ∧ InPhase t ∧ OkFor t k ∧ t.panel = s.panel.homed := by
  rcases hi with rfl | rfl
  · obtain ⟨t, he, ht⟩ := transmit_command_received hu hp hk (c := .clearDisplay) rfl (v := clearDisplayByte) rfl
      (wait := some s.cfg.tLong) rfl
    exact ⟨t, (whenOpen_opened _ hu.opened).trans he, ht.result, ht.usable, ht.inPhase, ht.answers,
      ht.panel.trans (receiveByte_command hu.params (c := .clearDisplay) rfl ..)⟩
  · obtain ⟨t, he, ht⟩ := transmit_command_received hu hp hk (c := .returnHome) rfl (v := returnHomeByte) rfl
      (wait := some s.cfg.tLong) rfl
    exact ⟨t, (whenOpen_opened _ hu.opened).trans he, ht.result, ht.usable, ht.inPhase, ht.answers,
      ht.panel.trans (receiveByte_command hu.params (c := .returnHome) rfl ..)⟩

/-- Settles O55: the next data byte is stored at DDRAM address 0, where the panel was homed. -/
theorem clearAndHomePutTheCursorAtTheOrigin : Obligations.ClearAndHomePutTheCursorAtTheOrigin := by
  intro s i code hi hu hp hk
  obtain ⟨t, he, hres, htu, htp, htk, hpanel⟩ := exec_clearOrHome hi hu hp (k := 6) hk
  have haddr : t.panel.address = .ddram 0 := by rw [hpanel]; rfl
  obtain ⟨u, heu, hresu, -, hstore, -⟩ := writeCharacterStoresOneByte t code htu htp htk
  obtain ⟨hread, -⟩ := hstore 0 haddr
  exact ⟨t, u, he, hres, haddr, heu, hresu, hread 0⟩

/-! ## The entry mode -/

/-- Settles O59: SET_ENTRY_MODE's one command tells the panel its flags; the bytes of the others keep them. -/
theorem setEntryModeTellsThePanel : Obligations.SetEntryModeTellsThePanel := by
  refine ⟨fun s l a hu hp hk => ?_, fun i s t hu hp hi hne h ht => exec_keeps_entry hi hne hu.params hp h (.inl ht)⟩
  have hbyte (n : Nat) (q : Panel) : q.receiveByte s.cfg n false (entryModeByte s.cfg l a) = q.receiveCommand n (.entryModeSet l a) :=
    receiveByte_command hu.params rfl n q
  obtain ⟨t, he, ht⟩ := transmit_received (s := s.setEntryFlags l a) ⟨hu.params, hu.opened, hu.geometry⟩
    (hp.congr rfl rfl rfl) (k := 0) hk (rs := false) (v := entryModeByte s.cfg l a) (wait := none)
    ((congrArg Panel.width (hbyte _ _)).trans hp.width) (List.append_nil _).symm
  have hpanel := ht.panel.trans (hbyte _ _)
  refine ⟨t, (whenOpen_opened _ hu.opened).trans he, ht.result, ht.inPhase, ?_⟩
  rw [hpanel]
  exact ⟨rfl, fun _ => rfl⟩

/-! ## A custom character -/

theorem cgramAddressByte_of_le {n : Nat} (h : n ≤ 7) : ∃ b, cgramAddressByte n = some b := by
  have hok : cgramLocationOk n = true := by
    simp only [cgramLocationOk, Bool.and_eq_true, decide_eq_true_eq]
    omega
  exact ⟨_, if_pos hok⟩

/-- A custom character with legal arguments is planned as its slot's address command and its bytes (R143). -/
theorem planCustomCharacter_go (s : State) {location : Int} {bitmap : List Byte} {b : Byte}
    (hb : cgramAddressByte location = some b) (hlen : bitmap.length = 8) :
    planCustomCharacter s location bitmap = .go (s.command b ++ s.dataAll bitmap) := by
  have hloc : cgramLocationOk location = true := by
    by_contra hno
    simp [cgramAddressByte, hno] at hb
  simp [planCustomCharacter, hloc, hlen, hb, addressThen]

theorem exec_createCustomCharacter_ok {s : State} (hu : Usable s) (hk : OkFor s 54) {location : Int} {bitmap : List Byte}
    {b : Byte} (hb : cgramAddressByte location = some b) (hlen : bitmap.length = 8) :
    exec (.createCustomCharacter location bitmap) s = .next (applyOk (s.command b ++ s.dataAll bitmap) s).returnOk := by
  have hwrites : countWrites (s.command b ++ s.dataAll bitmap) = 54 := by
    rw [countWrites_append, countWrites_dataAll, hlen, State.command, countWrites_send]
  rw [show exec (.createCustomCharacter location bitmap) s = _ from whenOpen_opened _ hu.opened,
    planCustomCharacter_go s hb hlen]
  exact transmit_ok hwrites.le hk

/-- Settles O56: the slot's address command, then eight data bytes from `8 * location` on. -/
theorem customCharacterFillsItsSlot : Obligations.CustomCharacterFillsItsSlot := by
  intro s location bitmap hu hp hk hup hloc hlen
  obtain ⟨b, hb⟩ := cgramAddressByte_of_le hloc
  obtain ⟨hphase, hpanel⟩ := applyOk_command_dataAll (s := s) hu.params rfl hp (c := .setCgramAddr location) rfl hb bitmap
  obtain ⟨hddram, hcgram⟩ := receiveAll_cgram (cfg := s.cfg) bitmap (s.ticks + 6) (k := 8 * location)
    (q := s.panel.receiveCommand (s.ticks + 5) (.setCgramAddr location)) hup (fun _ => rfl) (by omega)
  rw [← hpanel] at hddram hcgram
  refine ⟨_, exec_createCustomCharacter_ok hu hk hb hlen, rfl, hphase.congr rfl rfl rfl, fun n hn => ?_, fun a ha => ?_,
    fun a => congrArg (Memory.read · a) hddram⟩
  · exact (hcgram _).trans (by rw [if_pos (by omega), Nat.add_sub_cancel_left])
  · exact (hcgram a).trans (if_neg (by omega))

end Sys2Proof.Machine
end

section
/-! PROOFS. The decoder and the encoder (30_encoding.md): decoding what the encoder gives is the identity, and a command byte
or a bus sequence the decoder accepts is what the encoder gives, for every legal choice of masks (R7) and flag bits (R64). -/

namespace Sys2Proof.Machine

/-! ## Command bytes -/

/-- A flag adds into a byte that has a 0 in its place as it is or-ed in (R108 (d)). -/
theorem add_flagBit {b f : Byte} (h : hasBit b f = false) (x : Bool) : b + flagBit x f = b ||| flagBit x f := by
  cases x
  · simp [flagBit]
  · exact BitVec.add_eq_or_of_and_eq_zero b f (by simpa [hasBit] using h)

section
variable {p : Params} (h : Flags p)
include h

theorem entryMode_sum (l a : Bool) :
    0x04 + flagBit l p.fEntryDir + flagBit a p.fEntryShift = entryModeByte p l a := by
  rw [add_flagBit (hasBit_base_flag h.entryDir rfl), add_flagBit, entryModeByte]
  rw [hasBit_or, hasBit_base_flag h.entryShift rfl, hasBit_flagBit_sibling h.entryDir l h.entryShift h.entry, Bool.or_false]

theorem displayControl_sum (o c b : Bool) :
    0x08 + flagBit o p.fDispOn + flagBit c p.fDispCursor + flagBit b p.fDispBlink = displayControlByte p o c b := by
  rw [add_flagBit (hasBit_base_flag h.dispOn rfl), add_flagBit (f := p.fDispCursor), add_flagBit, displayControlByte]
  · rw [hasBit_or, hasBit_or, hasBit_base_flag h.dispBlink rfl, hasBit_flagBit_sibling h.dispOn o h.dispBlink h.on_blink,
      hasBit_flagBit_sibling h.dispCursor c h.dispBlink h.cursor_blink, Bool.or_false, Bool.or_false]
  · rw [hasBit_or, hasBit_base_flag h.dispCursor rfl, hasBit_flagBit_sibling h.dispOn o h.dispCursor h.on_cursor, Bool.or_false]

theorem shift_sum (m r : Bool) :
    0x10 + flagBit m p.fShiftDisplay + flagBit r p.fShiftRight = shiftByte p m r := by
  rw [add_flagBit (hasBit_base_flag h.shiftDisplay rfl), add_flagBit, shiftByte]
  rw [hasBit_or, hasBit_base_flag h.shiftRight rfl, hasBit_flagBit_sibling h.shiftDisplay m h.shiftRight h.shift, Bool.or_false]

theorem functionSet_sum (e t f : Bool) :
    0x20 + flagBit e p.fFunc8Bit + flagBit t p.fFunc2Line + flagBit f p.fFuncTall = functionSetByte p e t f := by
  rw [add_flagBit (hasBit_base_flag h.func8Bit rfl), add_flagBit (f := p.fFunc2Line), add_flagBit, functionSetByte]
  · rw [hasBit_or, hasBit_or, hasBit_base_flag h.funcTall rfl, hasBit_flagBit_sibling h.func8Bit e h.funcTall h.bit_tall,
      hasBit_flagBit_sibling h.func2Line t h.funcTall h.line_tall, Bool.or_false, Bool.or_false]
  · rw [hasBit_or, hasBit_base_flag h.func2Line rfl, hasBit_flagBit_sibling h.func8Bit e h.func2Line h.bit_line, Bool.or_false]

end

theorem cgramLocationOk_iff {location : Int} : cgramLocationOk location = true ↔ 0 ≤ location ∧ location ≤ 7 := by
  simp [cgramLocationOk]

theorem ddramOffsetOk_iff {offset : Int} : ddramOffsetOk offset = true ↔ 0 ≤ offset ∧ offset ≤ 0x7F := by
  simp [ddramOffsetOk]

/-- The byte of a CGRAM location is the sum R106 writes. -/
theorem cgramAddressByte_sum (location : Int) :
    cgramAddressByte location = if cgramLocationOk location then some (BitVec.ofInt 8 (0x40 + 8 * location)) else none := by
  have sum : ∀ n : Fin 8, 0x40#8 ||| (BitVec.ofNat 8 n.val <<< 3) = BitVec.ofInt 8 (0x40 + 8 * (n.val : Int)) := by decide
  unfold cgramAddressByte
  split
  · rename_i hl
    obtain ⟨h0, h7⟩ := cgramLocationOk_iff.1 hl
    obtain ⟨n, rfl⟩ := Int.eq_ofNat_of_zero_le h0
    exact congrArg some (sum ⟨n, by omega⟩)
  · rfl

/-- The byte of a DDRAM offset is the sum R107 writes. -/
theorem ddramAddressByte_sum (offset : Int) :
    ddramAddressByte offset = if ddramOffsetOk offset then some (BitVec.ofInt 8 (0x80 + offset)) else none := by
  have sum : ∀ n : Fin 128, 0x80#8 ||| BitVec.ofNat 8 n.val = BitVec.ofInt 8 (0x80 + (n.val : Int)) := by decide
  unfold ddramAddressByte
  split
  · rename_i hl
    obtain ⟨h0, h7⟩ := ddramOffsetOk_iff.1 hl
    obtain ⟨n, rfl⟩ := Int.eq_ofNat_of_zero_le h0
    exact congrArg some (sum ⟨n, by omega⟩)
  · rfl

/-- The request of an encoder call is the byte the CommandEncoder returns for it. -/
theorem encode_encoderCall {p : Params} (hw : p.wf = true) {i : Instr} (hi : isEncoderCall i = true) :
    encode p i = (commandByte p i).map fun b => .inner (.encoder b) := by
  have h := flags_of_wf hw
  cases i <;> simp only [isEncoderCall, Bool.false_eq_true] at hi
  case clearDisplay => rfl
  case returnHome => rfl
  case entryModeSet l a => simp only [encode, commandByte, entryMode_sum h, Option.map_some]
  case displayControl o c b => simp only [encode, commandByte, displayControl_sum h, Option.map_some]
  case cursorDisplayShift m r => simp only [encode, commandByte, shift_sum h, Option.map_some]
  case functionSet e t f => simp only [encode, commandByte, functionSet_sum h, Option.map_some]
  case setCgramAddr location =>
    simp only [encode, commandByte, cgramAddressByte_sum]
    split <;> rfl
  case setDdramAddr offset =>
    simp only [encode, commandByte, ddramAddressByte_sum]
    split <;> rfl

/-- Only an encoder call has a command byte, and only inside its encoder's domain. -/
theorem commandByte_isSome (p : Params) (i : Instr) : (commandByte p i).isSome = (isEncoderCall i && i.wf) := by
  cases i
  case setCgramAddr location =>
    simp only [commandByte, cgramAddressByte, isEncoderCall, Instr.wf, Bool.true_and]
    split <;> simp [*]
  case setDdramAddr offset =>
    simp only [commandByte, ddramAddressByte, isEncoderCall, Instr.wf, Bool.true_and]
    split <;> simp [*]
  all_goals rfl

theorem isEncoderCall_of_commandByte {p : Params} {i : Instr} {b : Byte} (hb : commandByte p i = some b) :
    isEncoderCall i = true ∧ i.wf = true := by
  simpa [hb] using (commandByte_isSome p i).symm

/-- What the decoder reads from a command byte is the encoder call that returns it (R67). -/
theorem decodeCommand_eq_ok {p : Params} (hw : p.wf = true) {b : Byte} {i : Instr} :
    decodeCommand p b = .ok i ↔ commandByte p i = some b := by
  refine ⟨fun h => ?_, decodeCommand_commandByte hw⟩
  unfold decodeCommand at h
  split at h
  · cases h
  · split at h
    · cases h
      assumption
    · cases h

theorem decodeCommand_error {p : Params} {b : Byte} {e : DecodeError} (h : decodeCommand p b = .error e) :
    e = .noSuchCommand b := by
  unfold decodeCommand at h
  split at h
  · cases h
    rfl
  · split at h
    · cases h
    · cases h
      rfl

/-! ## Bus bytes -/

theorem dataNibble_or_controlMask (a : Byte) {m : Byte} (hm : controlMaskOk m = true) : dataNibble (a ||| m) = dataNibble a := by
  have low : dataNibble m = 0#4 := by rcases controlMask_cases m hm with rfl | rfl | rfl | rfl <;> rfl
  rw [dataNibble, BitVec.extractLsb'_or]
  exact (congrArg (dataNibble a ||| ·) low).trans BitVec.or_zero

theorem dataNibble_idleByte {p : Params} (h : Masks p) (data : Byte) (rs bl : Bool) :
    dataNibble (idleByte p data rs bl) = data.extractLsb' 4 4 :=
  (dataNibble_or_controlMask _ h.en).symm.trans (dataNibble_strobeByte h data rs bl)

/-- The value the decoder reads from the first and the fourth bus byte joins their data nibbles (R61). -/
theorem joined_dataNibbles (b c : Byte) : (b &&& 0xF0#8) ||| (c >>> 4) = joinNibbles (dataNibble b) (dataNibble c) := by
  have hi : ∀ b : Byte, b &&& 0xF0#8 = dataNibble b ++ 0#4 := by decide
  have lo : ∀ c : Byte, c >>> 4 = 0#4 ++ dataNibble c := by decide
  rw [hi, lo, BitVec.or_append, BitVec.or_zero, BitVec.zero_or, joinNibbles]

theorem decodeTransport_sendBytes {p : Params} (h : Masks p) (v : Byte) (rs bl : Bool) :
    decodeTransport p (sendBytes p v rs bl) = .ok (.send v rs bl) := by
  have value : (idleByte p v rs bl &&& 0xF0#8) ||| (idleByte p (v <<< 4) rs bl >>> 4) = v := by
    rw [joined_dataNibbles, dataNibble_idleByte h, dataNibble_idleByte h, joinNibbles_halves]
  simp only [decodeTransport, sendBytes, strobeBytes, highNibbleByte_idle, lowNibbleByte_idle, List.cons_append, List.nil_append,
    value, idleByte_rs h, idleByte_bl h, if_true]

theorem decodeTransport_blwriteByte {p : Params} (h : Masks p) (bl : Bool) :
    decodeTransport p [blwriteByte p bl] = .ok (.blwrite bl) := by
  simp only [decodeTransport, blwriteByte_bl h, if_true]

/-- Everything the decoder reads from bus bytes: a BLWRITE or a SEND that writes exactly these (R67). -/
theorem decodeTransport_ok {p : Params} {bytes : List Byte} {i : Instr} (h : decodeTransport p bytes = .ok i) :
    (∃ bl, i = .blwrite bl ∧ bytes = [blwriteByte p bl]) ∨ (∃ v rs bl, i = .send v rs bl ∧ bytes = sendBytes p v rs bl) := by
  unfold decodeTransport at h
  split at h
  · split at h
    · rename_i b hb
      cases h
      exact .inl ⟨_, rfl, congrArg ([·]) hb⟩
    · cases h
  · dsimp only at h
    split at h
    · rename_i hb
      cases h
      exact .inr ⟨_, _, _, rfl, hb.symm⟩
    · cases h
  · cases h

/-! ## Host records -/

/-- A Boolean operand is read back from its field (log 15). -/
theorem withFlag_boolArg (f : Bool → Instr) (x : Bool) : withFlag (boolArg x) f = .ok (f x) := by
  cases x <;> rfl

theorem asByte_toNat (b : Byte) : asByte b.toNat = .ok b := by
  have hb : (0 : Int) ≤ b.toNat ∧ (b.toNat : Int) ≤ 255 := by omega
  simp [asByte, hb]

/-- A host operation has a record of R70, from which the port reads it back. -/
theorem decodeHost_encode (p : Params) {i : Instr} (hi : isHostOp i = true) :
    ∃ r, encode p i = some (.host r) ∧ decodeHost r = .ok i := by
  cases i <;> simp only [isHostOp, Bool.false_eq_true] at hi
  case setBacklight on => exact ⟨_, rfl, withFlag_boolArg .setBacklight on⟩
  case setDisplay on => exact ⟨_, rfl, withFlag_boolArg .setDisplay on⟩
  case setCursorVisible on => exact ⟨_, rfl, withFlag_boolArg .setCursorVisible on⟩
  case setCursorBlinking on => exact ⟨_, rfl, withFlag_boolArg .setCursorBlinking on⟩
  case shiftDisplay right => exact ⟨_, rfl, withFlag_boolArg .shiftDisplay right⟩
  case shiftCursor right => exact ⟨_, rfl, withFlag_boolArg .shiftCursor right⟩
  case setEntryMode l a =>
    refine ⟨_, rfl, ?_⟩
    cases l <;> exact withFlag_boolArg (.setEntryMode _) a
  case writeCharacter code =>
    refine ⟨_, rfl, ?_⟩
    simp only [decodeHost, BitVec.reduceToNat, asByte_toNat]
  all_goals exact ⟨_, rfl, rfl⟩

theorem wf_of_isHostOp {i : Instr} (hi : isHostOp i = true) : i.wf = true := by
  cases i
  case setCgramAddr => cases hi
  case setDdramAddr => cases hi
  all_goals rfl

/-! ## The two directions -/

/-- Who is asked for an instruction (R60): the host request port, the CommandEncoder, or the NibbleTransport. -/
theorem instr_port (i : Instr) :
    isHostOp i = true ∨ isEncoderCall i = true ∨ (∃ v rs bl, i = .send v rs bl) ∨ ∃ bl, i = .blwrite bl := by
  cases i <;> simp [isHostOp, isEncoderCall]

/-- Settles O1, by the formats of R60: a host record, a command byte, the bus bytes of a SEND or a BLWRITE. -/
theorem decodeOfEncodeIsTheInstruction : Obligations.DecodeOfEncodeIsTheInstruction := by
  intro p i hw hi
  obtain hhost | henc | ⟨v, rs, bl, rfl⟩ | ⟨bl, rfl⟩ := instr_port i
  · obtain ⟨r, he, hd⟩ := decodeHost_encode p hhost
    exact ⟨.host r, he, hd⟩
  · obtain ⟨b, hb⟩ : ∃ b, commandByte p i = some b :=
      Option.isSome_iff_exists.1 (by rw [commandByte_isSome, henc, hi, Bool.and_self])
    exact ⟨.inner (.encoder b), by rw [encode_encoderCall hw henc, hb, Option.map_some], decodeCommand_commandByte hw hb⟩
  · exact ⟨_, rfl, decodeTransport_sendBytes (masks_of_wf hw) v rs bl⟩
  · exact ⟨_, rfl, decodeTransport_blwriteByte (masks_of_wf hw) bl⟩

/-- Settles O2, by the formats of R60: each decoder accepts only what its encoder writes. -/
theorem acceptedBytesAreExactlyEncoderOutput : Obligations.AcceptedBytesAreExactlyEncoderOutput := by
  intro p r i hw hd
  obtain r | b | bytes := r
  · have hhost := decodeHost_isHostOp hd
    exact ⟨wf_of_isHostOp hhost, fun hno => absurd hhost (by simp [hno])⟩
  · have hb := (decodeCommand_eq_ok hw).1 hd
    obtain ⟨henc, hwf⟩ := isEncoderCall_of_commandByte hb
    exact ⟨hwf, fun _ => by rw [encode_encoderCall hw henc, hb, Option.map_some]⟩
  · obtain ⟨bl, rfl, rfl⟩ | ⟨v, rs, bl, rfl, rfl⟩ := decodeTransport_ok hd
    · exact ⟨rfl, fun _ => rfl⟩
    · exact ⟨rfl, fun _ => rfl⟩

end Sys2Proof.Machine
end

section
/-! PROOFS. The layout of the command bytes with the default flag positions (30_encoding.md R63; D4, log 3), and words
written out from the spec. -/

namespace Sys2Proof.Machine

/-- The defaults of R7 and R64 are legal, whatever the two OPEN parameters are. -/
theorem ofOpen_wf (d : Bool) (t : PanelUp) : (Params.ofOpen d t).wf = true := by
  have masks : (Params.ofOpen d t).masksOk = true := by
    simp only [Params.masksOk, Params.ofOpen]
    decide
  have flags : (Params.ofOpen d t).flagsOk = true := by
    simp only [Params.flagsOk, Params.ofOpen]
    decide
  have times : (Params.ofOpen d t).timesOk = true := by simp [Params.timesOk, Params.ofOpen]
  rw [Params.wf, masks, flags, times]
  rfl

/-- The row of R63 a byte stands in, with the operands its fields carry. -/
inductive TableRow (b : Byte) : Instr → Prop
  | clearDisplay (h : b = 0x01) : TableRow b .clearDisplay
  | returnHome (h : b = 0x02) : TableRow b .returnHome
  | entryModeSet (h : b &&& 0xFC = 0x04) : TableRow b (.entryModeSet (b.getLsbD 1) (b.getLsbD 0))
  | displayControl (h : b &&& 0xF8 = 0x08) : TableRow b (.displayControl (b.getLsbD 2) (b.getLsbD 1) (b.getLsbD 0))
  | cursorDisplayShift (h : b &&& 0xF3 = 0x10) : TableRow b (.cursorDisplayShift (b.getLsbD 3) (b.getLsbD 2))
  | functionSet (h : b &&& 0xE3 = 0x20) : TableRow b (.functionSet (b.getLsbD 4) (b.getLsbD 3) (b.getLsbD 2))
  | setCgramAddr (h : b &&& 0xC7 = 0x40) : TableRow b (.setCgramAddr (b.extractLsb' 3 3).toNat)
  | setDdramAddr (h : b &&& 0x80 = 0x80) : TableRow b (.setDdramAddr (b.extractLsb' 0 7).toNat)

section
variable (d : Bool) (t : PanelUp) {b : Byte}

/-- The encoder call of a byte's row returns that byte. -/
theorem TableRow.commandByte {i : Instr} (h : TableRow b i) : commandByte (Params.ofOpen d t) i = some b := by
  cases h with
  | clearDisplay h => exact congrArg some h.symm
  | returnHome h => exact congrArg some h.symm
  | entryModeSet h =>
    have bits : ∀ b : Byte, b &&& 0xFC = 0x04 →
        0x04 ||| flagBit (b.getLsbD 1) 0x02 ||| flagBit (b.getLsbD 0) 0x01 = b := by decide
    exact congrArg some (bits b h)
  | displayControl h =>
    have bits : ∀ b : Byte, b &&& 0xF8 = 0x08 →
        0x08 ||| flagBit (b.getLsbD 2) 0x04 ||| flagBit (b.getLsbD 1) 0x02 ||| flagBit (b.getLsbD 0) 0x01 = b := by decide
    exact congrArg some (bits b h)
  | cursorDisplayShift h =>
    have bits : ∀ b : Byte, b &&& 0xF3 = 0x10 →
        0x10 ||| flagBit (b.getLsbD 3) 0x08 ||| flagBit (b.getLsbD 2) 0x04 = b := by decide
    exact congrArg some (bits b h)
  | functionSet h =>
    have bits : ∀ b : Byte, b &&& 0xE3 = 0x20 →
        0x20 ||| flagBit (b.getLsbD 4) 0x10 ||| flagBit (b.getLsbD 3) 0x08 ||| flagBit (b.getLsbD 2) 0x04 = b := by decide
    exact congrArg some (bits b h)
  | setCgramAddr h =>
    have bits : ∀ b : Byte, b &&& 0xC7 = 0x40 → cgramAddressByte (b.extractLsb' 3 3).toNat = some b := by decide
    exact bits b h
  | setDdramAddr h =>
    have bits : ∀ b : Byte, b &&& 0x80 = 0x80 → ddramAddressByte (b.extractLsb' 0 7).toNat = some b := by decide
    exact bits b h

theorem TableRow.decode {i : Instr} (h : TableRow b i) : decode (Params.ofOpen d t) (.inner (.encoder b)) = .ok i :=
  decodeCommand_commandByte (ofOpen_wf d t) (h.commandByte d t)

/-- Every byte an encoder returns stands in a row of the table. -/
theorem tableRow_of_commandByte {i : Instr} (h : commandByte (Params.ofOpen d t) i = some b) : ∃ j, TableRow b j := by
  cases i <;> simp only [commandByte, Option.some.injEq, reduceCtorEq] at h
  case clearDisplay => exact ⟨_, .clearDisplay h.symm⟩
  case returnHome => exact ⟨_, .returnHome h.symm⟩
  case entryModeSet l a =>
    have row : ∀ l a, (0x04 ||| flagBit l 0x02 ||| flagBit a 0x01) &&& 0xFC = 0x04 := by decide
    exact ⟨_, .entryModeSet (h ▸ row l a)⟩
  case displayControl o c k =>
    have row : ∀ o c k, (0x08 ||| flagBit o 0x04 ||| flagBit c 0x02 ||| flagBit k 0x01) &&& 0xF8 = 0x08 := by decide
    exact ⟨_, .displayControl (h ▸ row o c k)⟩
  case cursorDisplayShift m r =>
    have row : ∀ m r, (0x10 ||| flagBit m 0x08 ||| flagBit r 0x04) &&& 0xF3 = 0x10 := by decide
    exact ⟨_, .cursorDisplayShift (h ▸ row m r)⟩
  case functionSet e l f =>
    have row : ∀ e l f, (0x20 ||| flagBit e 0x10 ||| flagBit l 0x08 ||| flagBit f 0x04) &&& 0xE3 = 0x20 := by decide
    exact ⟨_, .functionSet (h ▸ row e l f)⟩
  case setCgramAddr location =>
    have row : ∀ n : Fin 8, (0x40#8 ||| (BitVec.ofNat 8 n.val <<< 3)) &&& 0xC7 = 0x40 := by decide
    unfold cgramAddressByte at h
    split at h
    · rename_i hl
      obtain ⟨h0, h7⟩ := cgramLocationOk_iff.1 hl
      cases h
      exact ⟨_, .setCgramAddr (row ⟨location.toNat, by omega⟩)⟩
    · cases h
  case setDdramAddr offset =>
    have row : ∀ c : Byte, (0x80#8 ||| c) &&& 0x80 = 0x80 := by decide
    unfold ddramAddressByte at h
    split at h
    · cases h
      exact ⟨_, .setDdramAddr (row _)⟩
    · cases h

end

/-- Settles O3: a byte of a row is the byte of that row's encoder call; a byte that decodes stands in a row. -/
theorem commandBytesHaveTheTablesLayout : Obligations.CommandBytesHaveTheTablesLayout := by
  intro d t b
  refine ⟨fun h => (TableRow.clearDisplay h).decode d t, fun h => (TableRow.returnHome h).decode d t,
    fun h => (TableRow.entryModeSet h).decode d t, fun h => (TableRow.displayControl h).decode d t,
    fun h => (TableRow.cursorDisplayShift h).decode d t, fun h => (TableRow.functionSet h).decode d t,
    fun h => (TableRow.setCgramAddr h).decode d t, fun h => (TableRow.setDdramAddr h).decode d t, ?_⟩
  rintro ⟨h1, h2, h3, h4, h5, h6, h7, h8⟩
  cases hd : decodeCommand (Params.ofOpen d t) b with
  | error e => exact hd.trans (congrArg _ (decodeCommand_error hd))
  | ok i =>
    obtain ⟨j, hj⟩ := tableRow_of_commandByte d t ((decodeCommand_eq_ok (ofOpen_wf d t)).1 hd)
    cases hj <;> contradiction

/-- Settles O4: each word is the encoder's, the bus bytes those of R66 and R91, the records as the port reads them. -/
theorem wordsOfTheSpecDecode : Obligations.WordsOfTheSpecDecode := fun d t =>
  have hm := masks_of_wf (ofOpen_wf d t)
  have bytes : sendBytes (Params.ofOpen d t) 0x41 true true = [0x49, 0x4D, 0x49, 0x19, 0x1D, 0x19] := by
    simp only [sendBytes, strobeBytes, highNibbleByte, lowNibbleByte, Params.ofOpen]
    decide
  ⟨TableRow.decode d t (.functionSet rfl), TableRow.decode d t (.setDdramAddr rfl), TableRow.decode d t (.setCgramAddr rfl),
    bytes ▸ decodeTransport_sendBytes hm 0x41 true true, decodeTransport_blwriteByte hm true, rfl, rfl, rfl⟩

end Sys2Proof.Machine
end

section
/-! PROOFS. The host's program reaches only the operations of its port (30_encoding.md R70, R72; D28). -/

namespace Sys2Proof.Machine

/-- The op codes of the table of R70. -/
def hostOpCodes : List Byte :=
  [0x00, 0x01, 0x10, 0x11, 0x12, 0x13, 0x14, 0x20, 0x21, 0x22, 0x23, 0x30, 0x31, 0x32, 0x40, 0x41, 0x42]

/-- An op code that is not in the table is refused, whatever the record's fields hold (D28). -/
theorem decodeHost_unknownOp {h : HostRecord} (hop : h.op ∉ hostOpCodes) : decodeHost h = .error (.unknownOp h.op) := by
  simp only [hostOpCodes, List.mem_cons, List.not_mem_nil, or_false, not_or, ← BitVec.toNat_inj] at hop
  unfold decodeHost
  split
  case h_18 => rfl
  all_goals simp_all

theorem step_of_undecodable {s u : State} {r : Request} {e : DecodeError} (hr : s.takeRequest = some (r, u))
    (hd : decode s.cfg r = .error e) : step s = .refused (.undecodable e) := by
  simp only [step, hr, hd]

/-- Everything a step can answer with a next state where no inner call was put from outside: it waits, or executes a host
operation of the host's program. -/
theorem step_next_host {s t : State} (hi : s.innerCall = none) (h : step s = .next t) :
    (s.requests = [] ∧ t = s) ∨
      ∃ q rest i, s.requests = q :: rest ∧ decode s.cfg (.host q) = .ok i ∧ isHostOp i = true ∧
        exec i { s with requests := rest } = .next t := by
  obtain ⟨hn, rfl⟩ | ⟨r, u, i, htake, hd, hx⟩ := step_next h
  · exact .inl ⟨(takeRequest_none hn).2, rfl⟩
  · obtain ⟨c, hc, -, -⟩ | ⟨q, rest, -, hq, rfl, rfl⟩ := takeRequest_some htake
    · simp [hi] at hc
    · exact .inr ⟨q, rest, i, hq, hd, decodeHost_isHostOp hd, hx⟩

/-- Settles O6. No instruction puts an inner call (`exec_sameRequests`), so after a step none is outstanding. -/
theorem hostReachesOnlyTheOperationsOfItsPort : Obligations.HostReachesOnlyTheOperationsOfItsPort := by
  refine ⟨fun s q rest hi hq hop => ?_, fun s t hi h => ?_, rfl, rfl⟩
  · exact step_of_undecodable (takeRequest_host hi hq) (decodeHost_unknownOp hop)
  · have hcases := step_next_host hi h
    refine ⟨?_, hcases⟩
    obtain ⟨-, rfl⟩ | ⟨_, _, _, -, -, -, hx⟩ := hcases
    · exact hi
    · exact (exec_sameRequests hx).innerCall.trans hi

end Sys2Proof.Machine
end

section
/-! PROOFS. The transport calls (40_transport.md R90 to R93): the events of a SEND and of a BLWRITE, the control bits of a
SEND's bytes, and the panel after each. -/

namespace Sys2Proof.Machine

/-! ## The events of a transmission -/

/-- An instruction that writes DS and then transmits an event list has transmitted it, whatever the sink answers. -/
theorem transmits_of_exec {i : Instr} {s : State} {ds : DisplayState} {acts : List Act}
    (h : exec i s = transmit (s.withDs ds) acts) : Transmits i s ds acts := by
  intro answers rest hn ha
  have ht : Transmitted (s.withDs ds) ds acts answers _ := report_answers hn ha
  exact ⟨_, h.trans (transmit_answers hn ha), { ht with }⟩

section
variable {s : State} (ho : s.session = .opened)
include ho

theorem exec_send_opened (v : Byte) (rs bl : Bool) :
    exec (.send v rs bl) s = transmit s (sendActs s.cfg v rs bl) := whenOpen_opened _ ho

theorem exec_blwrite_opened (bl : Bool) : exec (.blwrite bl) s = transmit s (blwriteActs s.cfg bl) := whenOpen_opened _ ho

end

/-- Settles O9: the ten events of R90 are the event list of the SEND, written out. -/
theorem sendTransmitsTwoStrobedNibbles : Obligations.SendTransmitsTwoStrobedNibbles :=
  fun _ v rs bl ho => transmits_of_exec (exec_send_opened ho v rs bl)

/-! ## The control bits of a SEND's bytes -/

/-- The writes of a SEND answered Ok are its six bus bytes. -/
theorem writesOf_cutTrace_send (p : Params) (v : Byte) (rs bl : Bool) :
    writesOf (cutTrace (sendActs p v rs bl) (List.replicate 6 true)) = (sendBytes p v rs bl).map (·, true) := rfl

/-- Each nibble's bytes: register select, nibble and backlight, with EN low, high, low (R66). -/
theorem sendBytes_eq (p : Params) (v : Byte) (rs bl : Bool) :
    sendBytes p v rs bl =
      [idleByte p v rs bl, idleByte p v rs bl ||| p.enMask, idleByte p v rs bl,
        idleByte p (v <<< 4) rs bl, idleByte p (v <<< 4) rs bl ||| p.enMask, idleByte p (v <<< 4) rs bl] := rfl

theorem mem_sendBytes {p : Params} {v : Byte} {rs bl : Bool} {b : Byte} (h : b ∈ sendBytes p v rs bl) :
    ∃ data, b = idleByte p data rs bl ∨ b = idleByte p data rs bl ||| p.enMask := by
  rw [sendBytes_eq] at h
  simp only [List.mem_cons, List.not_mem_nil, or_false] at h
  obtain h | h | h | h | h | h := h
  · exact ⟨v, .inl h⟩
  · exact ⟨v, .inr h⟩
  · exact ⟨v, .inl h⟩
  · exact ⟨v <<< 4, .inl h⟩
  · exact ⟨v <<< 4, .inr h⟩
  · exact ⟨v <<< 4, .inl h⟩

section
variable {p : Params} (hp : Masks p)
include hp

/-- EN is high in exactly the second and the fifth byte of a SEND (R92 (b)). -/
theorem sendBytes_en (v : Byte) (rs bl : Bool) :
    (sendBytes p v rs bl).map (hasBit · p.enMask) = [false, true, false, false, true, false] := by
  simp [sendBytes_eq, idleByte_en hp, strobeByte_en hp]

/-- Every byte of a SEND carries the backlight and register-select bits it is given, and RW 0 (R92 (f)). -/
theorem sendBytes_controlBits {v : Byte} {rs bl : Bool} {b : Byte} (h : b ∈ sendBytes p v rs bl) :
    hasBit b p.blMask = bl ∧ hasBit b p.rsMask = rs ∧ hasBit b p.rwMask = false := by
  obtain ⟨data, rfl | rfl⟩ := mem_sendBytes h
  · exact ⟨idleByte_bl hp .., idleByte_rs hp .., idleByte_rw hp ..⟩
  · exact ⟨strobeByte_bl hp .., strobeByte_rs hp .., strobeByte_rw hp ..⟩

end

/-- Settles O10: the bytes by the bits of an idle and of a strobe byte; the panel by the one byte it has received, after
which the high nibble comes next whatever the byte was. -/
theorem sendBytesCarryTheirControlBits : Obligations.SendBytesCarryTheirControlBits := by
  refine ⟨fun p v rs bl hw => ?_, fun s v rs bl hu hp hk => ?_⟩
  · have hm := masks_of_wf hw
    intro events
    have hwrites : writesOf events = (sendBytes p v rs bl).map (·, true) := writesOf_cutTrace_send ..
    rw [hwrites, List.map_map]
    refine ⟨rfl, sendBytes_en hm v rs bl, fun w hmem => ?_⟩
    obtain ⟨b, hb, rfl⟩ := List.mem_map.1 hmem
    exact ⟨rfl, sendBytes_controlBits hm hb⟩
  · obtain ⟨hpanel, -, hen⟩ := applyOk_send hu.params hp v rs bl
    have hcfg := (applyOk_untouched (sendActs s.cfg v rs bl) s).cfg
    refine ⟨_, (exec_send_opened hu.opened v rs bl).trans (transmit_ok le_rfl hk), rfl, ?_, ?_⟩
    · rw [returnOk_panel, hpanel, receiveByte_phase hp.phase]
    · rwa [returnOk_cfg, returnOk_outputs, hcfg]

/-! ## BLWRITE -/

/-- Settles O13: the one event is that of R91, and its byte begins and ends no strobe. -/
theorem blwriteIsOneWriteWithoutStrobe : Obligations.BlwriteIsOneWriteWithoutStrobe := by
  intro s bl ho
  have hx := exec_blwrite_opened ho bl
  refine ⟨transmits_of_exec hx, fun hen hk => ?_⟩
  exact ⟨_, hx.trans (transmit_ok le_rfl hk), applyOk_blwrite_panel hen bl⟩

end Sys2Proof.Machine
end

section
/-! PROOFS. The CommandEncoder run on its own (41_command_encoder.md R100 to R108; log 14): the byte an encoder call returns,
and the refusal outside the domain of an address encoder. -/

namespace Sys2Proof.Machine

/-- An encoder call that has a command byte gives it to the caller and changes nothing else. -/
theorem exec_of_commandByte {i : Instr} {s : State} {b : Byte} (hb : commandByte s.cfg i = some b) :
    exec i s = .next (s.encoderReturns b) := by
  obtain ⟨hi, -⟩ := isEncoderCall_of_commandByte hb
  rw [exec_encoderCall hi, hb]
  rfl

/-- An encoder call whose operand is outside the encoder's domain has no command byte, and is refused by name (U2). -/
theorem exec_encoderCall_of_not_wf {i : Instr} (hi : isEncoderCall i = true) (hw : i.wf = false) (s : State) :
    exec i s = .refused .encoderDomain := by
  have hb : commandByte s.cfg i = none := by
    simpa [hw] using commandByte_isSome s.cfg i
  rw [exec_encoderCall hi, hb]
  rfl

/-- Settles O7: each call returns its command byte, and a command byte is the sum of its terms because every flag has a bit of
its own below the base and every operand fits its field (R108 (d)). -/
theorem encoderCallsReturnTheSumOfTheirTerms : Obligations.EncoderCallsReturnTheSumOfTheirTerms := by
  intro s hw bit
  have hf := flags_of_wf hw
  refine ⟨exec_of_commandByte rfl, exec_of_commandByte rfl,
    fun l a => exec_of_commandByte (congrArg some (entryMode_sum hf l a).symm),
    fun o c b => exec_of_commandByte (congrArg some (displayControl_sum hf o c b).symm),
    fun m r => exec_of_commandByte (congrArg some (shift_sum hf m r).symm),
    fun e t f => exec_of_commandByte (congrArg some (functionSet_sum hf e t f).symm),
    fun location h0 h7 => exec_of_commandByte ?_, fun offset h0 h7 => exec_of_commandByte ?_⟩
  · exact (cgramAddressByte_sum location).trans (if_pos (cgramLocationOk_iff.2 ⟨h0, h7⟩))
  · exact (ddramAddressByte_sum offset).trans (if_pos (ddramOffsetOk_iff.2 ⟨h0, h7⟩))

/-- Settles O8: outside 0 to 7, or 0 to 0x7F, the operand of an address encoder is not well formed. -/
theorem addressEncodersArePartial : Obligations.AddressEncodersArePartial := by
  refine fun s => ⟨fun location hout => exec_encoderCall_of_not_wf rfl ?_ s,
    fun offset hout => exec_encoderCall_of_not_wf rfl ?_ s⟩
  · have hnot : ¬ cgramLocationOk location = true := by
      rw [cgramLocationOk_iff]
      omega
    exact Bool.eq_false_iff.2 hnot
  · have hnot : ¬ ddramOffsetOk offset = true := by
      rw [ddramOffsetOk_iff]
      omega
    exact Bool.eq_false_iff.2 hnot

end Sys2Proof.Machine
end

section
/-! PROOFS. The setters, CLEAR, HOME and the shifts (42_controller_ops.md R120 to R130): each writes the DS fields of its rule
and then transmits the one event list it has planned, and a setter's list is made of the DS it has written. -/

namespace Sys2Proof.Machine

/-! ## An instruction that plans an event list -/

section
variable {i : Instr} (hi : isTransmission i = true) {s : State} {acts : List Act}
  (hp : planOf (s.withDs (newDs s.ds i)) i = .go acts)
include hi hp

theorem exec_of_plan : exec i s = whenOpen s (transmit (s.withDs (newDs s.ds i)) acts) := by
  rw [exec_transmission hi, hp]
  rfl

theorem exec_opened_of_plan (ho : s.session = .opened) : exec i s = transmit (s.withDs (newDs s.ds i)) acts :=
  (exec_of_plan hi hp).trans (whenOpen_opened _ ho)

/-- In an open session an instruction transmits the event list it plans, whatever the sink answers (R120, R93). -/
theorem transmits_of_plan (ho : s.session = .opened) : Transmits i s (newDs s.ds i) acts :=
  transmits_of_exec (exec_opened_of_plan hi hp ho)

end

/-- Settles O15: the event list is that of a BLWRITE, whose byte begins and ends no strobe. -/
theorem setBacklightIsOneWriteWithoutStrobe : Obligations.SetBacklightIsOneWriteWithoutStrobe := by
  intro s on ho
  refine ⟨transmits_of_plan rfl rfl ho, fun hen hk => ?_⟩
  have hx : exec (.setBacklight on) s = transmit (s.setBacklightOn on) (blwriteActs s.cfg on) :=
    exec_opened_of_plan rfl rfl ho
  exact ⟨_, hx.trans (transmit_ok le_rfl hk), applyOk_blwrite_panel (s := s.setBacklightOn on) hen on⟩

/-- Settles O16: each plans the display-control command of the DS it has written. -/
theorem displaySettersUpdateThenTransmit : Obligations.DisplaySettersUpdateThenTransmit := fun _ _ ho =>
  ⟨transmits_of_plan rfl rfl ho, transmits_of_plan rfl rfl ho, transmits_of_plan rfl rfl ho⟩

/-- Settles O17: the plan is the entry-mode command of the DS it has written. -/
theorem entryModeSetterUpdatesThenTransmits : Obligations.EntryModeSetterUpdatesThenTransmits := fun _ _ _ ho =>
  transmits_of_plan rfl rfl ho

/-- Settles O18: the long wait stands last in both plans, so a failed write cuts it off. -/
theorem clearAndHomeWaitLongAfterTheirCommand : Obligations.ClearAndHomeWaitLongAfterTheirCommand := fun _ ho =>
  ⟨transmits_of_plan rfl rfl ho, transmits_of_plan rfl rfl ho⟩

/-- Settles O19: each plans its one shift command, and writes no field of DS. -/
theorem shiftsSendOneCommand : Obligations.ShiftsSendOneCommand := fun _ _ ho =>
  ⟨transmits_of_plan rfl rfl ho, transmits_of_plan rfl rfl ho⟩

/-! ## The trace of a setter -/

/-- An event list answered Ok appends all of its events. -/
theorem applyOk_trace (acts : List Act) (s : State) :
    (applyOk acts s).trace = s.trace ++ cutTrace acts (List.replicate (countWrites acts) true) := by
  induction acts generalizing s with
  | nil => exact (List.append_nil _).symm
  | cons x rest ih =>
    cases x with
    | wait ns => simp [applyOk, ih, countWrites, cutTrace]
    | write b => simp [applyOk, ih, countWrites, cutTrace, List.replicate_succ]

/-- A transmission that returns Ok, whatever listed or free answers it was given, has appended all of its events. -/
theorem transmit_trace_of_ok {s t : State} {acts : List Act} (h : transmit s acts = .next t) (hr : t.result = some .ok) :
    t.trace = s.trace ++ cutTrace acts (List.replicate (countWrites acts) true) := by
  obtain rfl := transmit_next h
  have hok := report_noFailure (perform_failureRecorded acts s) (.inl (by simp [hr]))
  rw [report_trace, perform_ok hok, applyOk_trace]

/-- The same for an instruction that plans the event list. -/
theorem trace_of_plan_ok {i : Instr} (hi : isTransmission i = true) {s t : State} {acts : List Act}
    (hp : planOf (s.withDs (newDs s.ds i)) i = .go acts) (h : exec i s = .next t) (hr : t.result = some .ok) :
    t.trace = s.trace ++ cutTrace acts (List.replicate (countWrites acts) true) := by
  rw [exec_of_plan hi hp] at h
  exact transmit_trace_of_ok (s := s.withDs (newDs s.ds i)) (whenOpen_next h).2 hr

/-- The five setters of R121 to R125. -/
def IsSetter (i : Instr) : Prop :=
  (∃ on, i = .setBacklight on) ∨ (∃ on, i = .setDisplay on) ∨ (∃ on, i = .setCursorVisible on) ∨
    (∃ on, i = .setCursorBlinking on) ∨ ∃ l a, i = .setEntryMode l a

section
variable {i : Instr} (hi : IsSetter i)
include hi

theorem IsSetter.isTransmission : isTransmission i = true := by
  obtain ⟨_, rfl⟩ | ⟨_, rfl⟩ | ⟨_, rfl⟩ | ⟨_, rfl⟩ | ⟨_, _, rfl⟩ := hi <;> rfl

/-- A setter transmits on every call (R130, C8): its plan begins with a write. -/
theorem IsSetter.planOf_writes (u : State) : ∃ b rest, planOf u i = .go (.write b :: rest) := by
  obtain ⟨_, rfl⟩ | ⟨_, rfl⟩ | ⟨_, rfl⟩ | ⟨_, rfl⟩ | ⟨_, _, rfl⟩ := hi <;> exact ⟨_, _, rfl⟩

/-- A setter's plan is made of the parameters and of the DS it has written, and of nothing else (R130). -/
theorem IsSetter.planOf_congr {s s' : State} (hc : s'.cfg = s.cfg) (ds : DisplayState) :
    planOf (s'.withDs ds) i = planOf (s.withDs ds) i := by
  obtain ⟨_, rfl⟩ | ⟨_, rfl⟩ | ⟨_, rfl⟩ | ⟨_, rfl⟩ | ⟨_, _, rfl⟩ := hi <;>
    simp only [planOf, State.command, State.dc, State.em, withDs_cfg, withDs_ds, hc]

theorem IsSetter.exec_ds {s t : State} (h : exec i s = .next t) : t.ds = newDs s.ds i := by
  obtain ⟨_, rfl⟩ | ⟨_, rfl⟩ | ⟨_, rfl⟩ | ⟨_, rfl⟩ | ⟨_, _, rfl⟩ := hi <;>
    exact Machine.exec_ds (by simp) (by simp) h

end

/-- Settles O20: both calls plan the same list, which begins with a write, and Ok means that all of it was appended. -/
theorem setterTraceDependsOnTheNewStateOnly : Obligations.SetterTraceDependsOnTheNewStateOnly := by
  intro i s s' t t' ev ev' (hi : IsSetter i) hcfg h h' hds hr hr' htr htr'
  have hnew : newDs s'.ds i = newDs s.ds i := by rw [← hi.exec_ds h, ← hi.exec_ds h', hds]
  obtain ⟨b, rest, hp⟩ := hi.planOf_writes (s.withDs (newDs s.ds i))
  have hp' : planOf (s'.withDs (newDs s'.ds i)) i = .go (.write b :: rest) := by
    rw [hnew, hi.planOf_congr hcfg.symm, hp]
  have hev := List.append_cancel_left (htr.symm.trans (trace_of_plan_ok hi.isTransmission hp h hr))
  have hev' := List.append_cancel_left (htr'.symm.trans (trace_of_plan_ok hi.isTransmission hp' h' hr'))
  refine ⟨hev.trans hev'.symm, ?_⟩
  rw [hev, countWrites, List.replicate_succ, cutTrace]
  exact List.cons_ne_nil _ _

end Sys2Proof.Machine
end

section
/-! PROOFS. The mapper and SET_CURSOR_POSITION (43_addressing_data_ops.md R140, R141): the two checks, row first (D10), and the
one command sent for a cell that passes them. -/

namespace Sys2Proof.Machine

/-! ## The mapper -/

theorem ddramOf_badRow (s : State) (column : Int) {row : Int} (hr : row < 0 ∨ s.rows ≤ row) :
    ddramOf s column row = .error .lineOutOfRange := by
  have hrow : rowInRange s row = false := by
    rw [Bool.eq_false_iff, ne_eq, rowInRange, Bool.and_eq_true, decide_eq_true_eq, decide_eq_true_eq]
    omega
  simp [ddramOf, hrow]

theorem ddramOf_badColumn {s : State} {column row : Int} (h0 : 0 ≤ row) (hr : row < s.rows)
    (hc : column < 0 ∨ s.columns < column) : ddramOf s column row = .error .columnOutOfRange := by
  have hrow : rowInRange s row = true := by simp [rowInRange, h0, hr]
  have hcol : columnInRange s column = false := by
    rw [Bool.eq_false_iff, ne_eq, columnInRange, Bool.and_eq_true, decide_eq_true_eq, decide_eq_true_eq]
    omega
  simp [ddramOf, hrow, hcol]

/-- Settles O22: both checks by what they compare, and the bound by the legal geometries (R211). -/
theorem mapperComputesTheAddressOrRaises : Obligations.MapperComputesTheAddressOrRaises := by
  refine fun s column row hu => ⟨ddramOf_badRow s column, ddramOf_badColumn, fun base hb hr h0 hc => ?_⟩
  obtain ⟨n, rfl⟩ := Int.eq_ofNat_of_zero_le h0
  have hle := hb.add_le hu.geometry hr
  exact ⟨ddramOf_cell hb hr (by omega), by omega⟩

/-! ## SET_CURSOR_POSITION -/

/-- A cell of the display, or the one past a row's end, is planned as the one command of its address (R140). -/
theorem planCursorPosition_cell {s : State} (hg : geometryOk s.rows s.columns = true) {column row : Int} {base : Nat}
    (hb : RowBase row base) (hr : row < s.rows) (h0 : 0 ≤ column) (hc : column ≤ s.columns) :
    planCursorPosition s column row =
      .go (sendActs s.cfg (BitVec.ofInt 8 (0x80 + base + column)) false s.ds.backlightOn) := by
  obtain ⟨n, rfl⟩ := Int.eq_ofNat_of_zero_le h0
  have hle := hb.add_le hg hr
  have hbyte : ddramAddressByte (base + n : Nat) = some (BitVec.ofInt 8 (0x80 + base + n)) := by
    rw [ddramAddressByte_sum, if_pos (ddramOffsetOk_iff.2 (by omega)), Int.natCast_add, Int.add_assoc]
  simp only [planCursorPosition, ddramOf_cell hb hr (show n ≤ s.columns by omega), hbyte, addressThen, List.append_nil]
  rfl

/-- Settles O21: the plan is the one command. -/
theorem setCursorPositionSendsTheMappedAddress : Obligations.SetCursorPositionSendsTheMappedAddress :=
  fun _ _ _ _ hu hb hr h0 hc => transmits_of_plan rfl (planCursorPosition_cell hu.geometry hb hr h0 hc) hu.opened

/-- What the mapper raises, the operation raises, before any event (R140, R188). -/
theorem exec_setCursorPosition_error {s : State} (ho : s.session = .opened) {column row : Int} {e : HostResult}
    (h : ddramOf s column row = .error e) :
    exec (.setCursorPosition column row) s = .next { s with result := some e } := by
  rw [show exec (.setCursorPosition column row) s = _ from whenOpen_opened _ ho, planCursorPosition, h]
  rfl

/-- Settles O23: the two errors are the mapper's. -/
theorem setCursorPositionErrors : Obligations.SetCursorPositionErrors := fun s column _ ho =>
  ⟨fun hr => exec_setCursorPosition_error ho (ddramOf_badRow s column hr),
    fun h0 hr hc => exec_setCursorPosition_error ho (ddramOf_badColumn h0 hr hc)⟩

end Sys2Proof.Machine
end

section
/-! PROOFS. WRITE_CHARACTER and CREATE_CUSTOM_CHARACTER (43_addressing_data_ops.md R142, R143): the SENDs of each, and the two
checks of a custom character, location first (D10). -/

namespace Sys2Proof.Machine

/-- Settles O24: the plan is the one SEND. -/
theorem writeCharacterSendsItsByteAsData : Obligations.WriteCharacterSendsItsByteAsData := fun _ _ ho =>
  transmits_of_plan rfl rfl ho

/-- The data bytes of a text or a bitmap are SENDs with the register select set. -/
theorem dataAll_eq_sendAll (s : State) (bytes : List Byte) :
    s.dataAll bytes = sendAll s.cfg s.ds.backlightOn (bytes.map (fun b => (true, b))) := by
  induction bytes with
  | nil => rfl
  | cons b rest ih => rw [State.dataAll, ih]; rfl

/-- The slot's address command, for a location 0 to 7 (R106). -/
theorem cgramAddressByte_slot {location : Int} (h0 : 0 ≤ location) (h7 : location ≤ 7) :
    cgramAddressByte location = some (BitVec.ofInt 8 (0x40 + 8 * location)) := by
  rw [cgramAddressByte_sum, if_pos (cgramLocationOk_iff.2 ⟨h0, h7⟩)]

/-- Settles O25: the plan is the slot's address command, then the data bytes. -/
theorem customCharacterSendsSlotAndEightBytes : Obligations.CustomCharacterSendsSlotAndEightBytes := by
  intro s location bitmap ho h0 h7 hlen
  rw [sendAll, ← dataAll_eq_sendAll]
  exact transmits_of_plan rfl (planCustomCharacter_go s (cgramAddressByte_slot h0 h7) hlen) ho

/-- What the plan raises, the operation raises, before any event (R143, R188). -/
theorem exec_createCustomCharacter_error {s : State} (ho : s.session = .opened) {location : Int} {bitmap : List Byte}
    {e : HostResult} (h : planCustomCharacter s location bitmap = .raise e) :
    exec (.createCustomCharacter location bitmap) s = .next { s with result := some e } := by
  rw [show exec (.createCustomCharacter location bitmap) s = _ from whenOpen_opened _ ho, h]
  rfl

/-- Settles O26: the plan raises by its two checks in order. -/
theorem customCharacterErrors : Obligations.CustomCharacterErrors := by
  refine fun s location bitmap ho => ⟨fun hloc => exec_createCustomCharacter_error ho ?_,
    fun h0 h7 hlen => exec_createCustomCharacter_error ho ?_⟩
  · have hbad : ¬ cgramLocationOk location = true := by
      rw [cgramLocationOk_iff]
      omega
    simp [planCustomCharacter, hbad]
  · simp [planCustomCharacter, cgramLocationOk_iff.2 ⟨h0, h7⟩, hlen]

end Sys2Proof.Machine
end

section
/-! PROOFS. Data goes to CGRAM until a positioning command (70_reset_and_hazards.md R226; log 9, log 13, log 29): the bytes
that select no memory leave the panel's address in CGRAM. -/

namespace Sys2Proof.Machine

/-! ## The bytes that select no memory -/

/-- The encoder calls whose command leaves both the interface width and the choice of memory as they are. -/
def selectsNoMemory : Instr → Bool
  | .entryModeSet _ _ => true
  | .displayControl _ _ _ => true
  | .cursorDisplayShift _ _ => true
  | _ => false

theorem receiveCommand_selectsNoMemory {c : Instr} (hc : selectsNoMemory c = true) (n : Nat) (q : Panel) :
    (q.receiveCommand n c).width = q.width ∧ (q.receiveCommand n c).address = strayAddr n q.address := by
  cases c <;> simp only [selectsNoMemory, Bool.false_eq_true] at hc <;> exact ⟨rfl, rfl⟩

/-- The bytes, with their register select, that leave the address in the memory it points into. -/
inductive SelectsNoMemory (p : Params) : Bool → Byte → Prop
  | data (v : Byte) : SelectsNoMemory p true v
  | command {c : Instr} {v : Byte} (hc : selectsNoMemory c = true) (hv : commandByte p c = some v) : SelectsNoMemory p false v

theorem SelectsNoMemory.receiveByte {p : Params} (hw : p.wf = true) {rs : Bool} {v : Byte} (h : SelectsNoMemory p rs v)
    (n : Nat) {q : Panel} {a : CgramAddr} (ha : q.address = .cgram a) :
    (q.receiveByte p n rs v).width = q.width ∧ ∃ b, (q.receiveByte p n rs v).address = .cgram b := by
  cases h with
  | data v =>
    rw [receiveByte_data, receiveData_of_cgram p n v ha]
    exact ⟨rfl, moveAddr_cgram ..⟩
  | command hc hv =>
    obtain ⟨hwidth, haddr⟩ := receiveCommand_selectsNoMemory hc n q
    rw [receiveByte_command hw hv]
    exact ⟨hwidth, _, by rw [haddr, ha, strayAddr_cgram]⟩

/-! ## The operations that select no memory -/

/-- The setters but SET_BACKLIGHT, the shifts, and WRITE_CHARACTER: each sends one byte, which selects no memory. -/
def SendsOneByte (i : Instr) : Prop :=
  (∃ on, i = .setDisplay on) ∨ (∃ on, i = .setCursorVisible on) ∨ (∃ on, i = .setCursorBlinking on) ∨
    (∃ l m, i = .setEntryMode l m) ∨ (∃ r, i = .shiftDisplay r) ∨ (∃ r, i = .shiftCursor r) ∨ ∃ c, i = .writeCharacter c

theorem SendsOneByte.planOf {i : Instr} (hi : SendsOneByte i) (u : State) :
    isTransmission i = true ∧
      ∃ rs v, SelectsNoMemory u.cfg rs v ∧ planOf u i = .go (sendActs u.cfg v rs u.ds.backlightOn) := by
  have dc : SelectsNoMemory u.cfg false u.dc :=
    .command (c := .displayControl u.ds.displayOn u.ds.cursorVisible u.ds.cursorBlinking) rfl rfl
  have em : SelectsNoMemory u.cfg false u.em :=
    .command (c := .entryModeSet u.ds.entryLeftToRight u.ds.autoscrollOn) rfl rfl
  have shift (display right : Bool) : SelectsNoMemory u.cfg false (shiftByte u.cfg display right) :=
    .command (c := .cursorDisplayShift display right) rfl rfl
  obtain ⟨_, rfl⟩ | ⟨_, rfl⟩ | ⟨_, rfl⟩ | ⟨_, _, rfl⟩ | ⟨right, rfl⟩ | ⟨right, rfl⟩ | ⟨code, rfl⟩ := hi
  · exact ⟨rfl, false, u.dc, dc, rfl⟩
  · exact ⟨rfl, false, u.dc, dc, rfl⟩
  · exact ⟨rfl, false, u.dc, dc, rfl⟩
  · exact ⟨rfl, false, u.em, em, rfl⟩
  · exact ⟨rfl, false, _, shift true right, rfl⟩
  · exact ⟨rfl, false, _, shift false right, rfl⟩
  · exact ⟨rfl, true, code, .data code, rfl⟩

theorem OkFor.mono {s : State} {n k : Nat} (h : OkFor s n) (hk : k ≤ n) : OkFor s k := by
  obtain ⟨rest, hr⟩ := h
  obtain ⟨m, rfl⟩ := Nat.exists_eq_add_of_le hk
  exact ⟨List.replicate m .ok ++ rest, by rw [hr, List.replicate_add, List.append_assoc]⟩

/-- An operation answered Ok that has left the panel's address in CGRAM, with `k` more Ok answers to come. -/
structure LeftInCgram (k : Nat) (t : State) : Prop where
  result  : t.result = some .ok
  usable  : Usable t
  inPhase : InPhase t
  answers : OkFor t k
  address : ∃ b, t.panel.address = .cgram b

section
variable {s : State} (hu : Usable s) (hp : InPhase s) {k : Nat} (hk : OkFor s (6 + k)) {a : CgramAddr}
  (ha : s.panel.address = .cgram a)
include hu hp hk ha

theorem SendsOneByte.exec_leftInCgram {i : Instr} (hi : SendsOneByte i) : ∃ t, exec i s = .next t ∧ LeftInCgram k t := by
  obtain ⟨htr, rs, v, hsel, hplan⟩ := hi.planOf (s.withDs (newDs s.ds i))
  obtain ⟨hwidth, haddr⟩ := hsel.receiveByte hu.params (s.ticks + 5) ha
  obtain ⟨t, he, ht⟩ := transmit_received (s := s.withDs (newDs s.ds i)) ⟨hu.params, hu.opened, hu.geometry⟩
    (hp.congr rfl rfl rfl) hk (wait := none) (hwidth.trans hp.width) (List.append_nil _).symm
  exact ⟨t, (exec_opened_of_plan htr hplan hu.opened).trans he,
    { ht with address := by rw [ht.panel]; exact haddr }⟩

/-- SET_BACKLIGHT makes no strobe, so the panel receives nothing (R121). -/
theorem exec_setBacklight_leftInCgram (on : Bool) : ∃ t, exec (.setBacklight on) s = .next t ∧ LeftInCgram k t := by
  have hx : exec (.setBacklight on) s = transmit (s.setBacklightOn on) (blwriteActs s.cfg on) :=
    exec_opened_of_plan rfl rfl hu.opened
  have hk1 : OkFor (s.setBacklightOn on) (1 + k) := OkFor.mono (s := s) hk (by omega)
  have hpanel := applyOk_blwrite_panel (s := s.setBacklightOn on) hp.enable on
  refine ⟨_, hx.trans (transmit_ok (n := 1 + k) (Nat.le_add_right ..) hk1), rfl,
    (Usable.applyOk (s := s.setBacklightOn on) ⟨hu.params, hu.opened, hu.geometry⟩ _).returnOk,
    ⟨hpanel ▸ hp.width, hpanel ▸ hp.phase, blwriteByte_en (masks_of_wf hu.params) on⟩,
    OkFor_applyOk (acts := blwriteActs s.cfg on) hk1, a, ?_⟩
  exact (congrArg Panel.address hpanel).trans ha

end

/-! ## A custom character -/

/-- Data bytes received in CGRAM, whichever way the address moves, leave it there and do not reach DDRAM. -/
theorem receiveAll_leavesInCgram {cfg : Params} (bytes : List Byte) (n : Nat) {q : Panel} {a : CgramAddr}
    (ha : q.address = .cgram a) :
    (∃ b, (q.receiveAll cfg n bytes).address = .cgram b) ∧ (q.receiveAll cfg n bytes).ddram = q.ddram := by
  induction bytes generalizing n q a with
  | nil => exact ⟨⟨a, ha⟩, rfl⟩
  | cons v rest ih =>
    have hfirst := receiveData_of_cgram cfg (n + 5) v ha
    obtain ⟨b, hb⟩ := moveAddr_cgram (goesUp cfg.panelUp q.entry) (n + 5) a
    obtain ⟨haddr, hddram⟩ := ih (n + 6) (q := q.receiveData cfg (n + 5) v) (a := b) (by rw [hfirst, hb])
    exact ⟨haddr, hddram.trans (by rw [hfirst])⟩

/-- Settles O60: the slot's command puts the address in CGRAM, and no byte sent after it selects a memory. -/
theorem dataGoesToCgramUntilAPositioningCommand : Obligations.DataGoesToCgramUntilAPositioningCommand := by
  refine ⟨fun s location bitmap hu hp hk h0 h7 hlen => ?_, fun i s a code hu hp hk ha hi => ?_⟩
  · have hbyte := cgramAddressByte_slot h0 h7
    obtain ⟨hphase, hpanel⟩ := applyOk_command_dataAll (s := s) hu.params rfl hp (c := .setCgramAddr location) rfl hbyte bitmap
    obtain ⟨haddr, hddram⟩ := receiveAll_leavesInCgram (cfg := s.cfg) bitmap (s.ticks + 6)
      (q := s.panel.receiveCommand (s.ticks + 5) (.setCgramAddr location)) rfl
    rw [← hpanel] at haddr hddram
    exact ⟨_, exec_createCustomCharacter_ok hu hk hbyte hlen, rfl, hphase.congr rfl rfl rfl, haddr,
      fun a => congrArg (Memory.read · a) hddram⟩
  · have hfirst : ∃ t, exec i s = .next t ∧ LeftInCgram 6 t := by
      obtain ⟨on, rfl⟩ | hi := hi
      · exact exec_setBacklight_leftInCgram hu hp hk ha on
      · exact SendsOneByte.exec_leftInCgram hu hp hk ha hi
    obtain ⟨t, he, ht⟩ := hfirst
    obtain ⟨b, hb⟩ := ht.address
    obtain ⟨u, heu, hresu, -, -, hcgram⟩ := writeCharacterStoresOneByte t code ht.usable ht.inPhase ht.answers
    obtain ⟨hstored, hddram, ⟨c, hc⟩, -, -⟩ := hcgram b hb
    exact ⟨t, u, b, c, he, ht.result, hb, heu, hresu, hc, (hstored _).trans (if_pos rfl), hddram⟩

end Sys2Proof.Machine
end

section
/-! PROOFS. The text operations (44_text_ops.md R150 to R152): the three checks, length first (D10), and the SENDs of a text
that fits its row. -/

namespace Sys2Proof.Machine

/-! ## The checks -/

/-- What its plan raises, an instruction raises, before any event (R188). -/
theorem exec_opened_of_plan_raise {i : Instr} (hi : isTransmission i = true) {s : State} {e : HostResult}
    (hp : planOf (s.withDs (newDs s.ds i)) i = .raise e) (ho : s.session = .opened) :
    exec i s = .next ((s.withDs (newDs s.ds i)).raiseError e) := by
  rw [exec_transmission hi, hp]
  exact whenOpen_opened _ ho

theorem rowInRange_iff {s : State} {row : Int} : rowInRange s row = true ↔ 0 ≤ row ∧ row < s.rows := by
  simp [rowInRange]

theorem columnInRange_iff {s : State} {column : Int} : columnInRange s column = true ↔ 0 ≤ column ∧ column ≤ s.columns := by
  simp [columnInRange]

section
variable {s : State} {text : List Byte} {row column : Int}

theorem planTextAt_long (hl : s.columns - column < text.length) : planTextAt s text row column = .raise .textTooLong :=
  if_pos hl

section
variable (hl : ¬ s.columns - column < text.length)
include hl

theorem planTextAt_badRow (hr : row < 0 ∨ s.rows ≤ row) : planTextAt s text row column = .raise .lineOutOfRange := by
  have hrow : ¬ rowInRange s row = true := by
    rw [rowInRange_iff]
    omega
  simp [planTextAt, hl, hrow]

theorem planTextAt_badColumn (hr : ¬ (row < 0 ∨ s.rows ≤ row)) (hc : column < 0) :
    planTextAt s text row column = .raise .columnOutOfRange := by
  have hrow : rowInRange s row = true := rowInRange_iff.2 (by omega)
  have hcol : ¬ columnInRange s column = true := by
    rw [columnInRange_iff]
    omega
  simp [planTextAt, hl, hrow, hcol]

end

/-- LAYOUT_TEXT raises what the layout raises (R161, R167). -/
theorem planLayoutText_long (hl : s.rows * s.columns < text.length) : planLayoutText s text = .raise .textTooLong := by
  simp [planLayoutText, layout, hl]

end

/-- Settles O28: each plan raises by its checks in order. -/
theorem textOperationErrors : Obligations.TextOperationErrors := by
  intro s text row column ho
  refine ⟨fun hl => exec_opened_of_plan_raise rfl (planTextAt_long hl) ho,
    fun hl hr => exec_opened_of_plan_raise rfl (planTextAt_badRow hl hr) ho,
    fun hl hr hc => exec_opened_of_plan_raise rfl (planTextAt_badColumn hl hr hc) ho,
    fun hl => exec_opened_of_plan_raise rfl (planTextAt_long (s := s) ?_) ho,
    fun hl hr => exec_opened_of_plan_raise rfl (planTextAt_badRow (s := s) ?_ hr) ho,
    fun hl => exec_opened_of_plan_raise rfl (planLayoutText_long hl) ho⟩
  · omega
  · omega

/-! ## A text that fits its row -/

theorem sendAll_append (p : Params) (bl : Bool) (a b : List (Bool × Byte)) :
    sendAll p bl (a ++ b) = sendAll p bl a ++ sendAll p bl b := by
  induction a with
  | nil => rfl
  | cons x rest ih => rw [List.cons_append, sendAll, sendAll, ih, List.append_assoc]

/-- The SENDs of a row are two runs of data, each after its address command: the spaces, and the text (R151, R152). -/
theorem sendAll_textSends (s : State) (base column : Nat) (text : List Byte) :
    sendAll s.cfg s.ds.backlightOn (textSends s.cfg s.columns base column text) =
      (s.command (BitVec.ofNat 8 (0x80 + base)) ++ s.blankRow) ++
        (s.command (BitVec.ofNat 8 (0x80 + base + column)) ++ s.dataAll text) := by
  rw [textSends, sendAll_append, sendAll, sendAll, State.blankRow, dataAll_eq_sendAll, dataAll_eq_sendAll, List.map_replicate]
  rfl

theorem ddramAddressByte_ofNat {n : Nat} (h : n ≤ 127) : ddramAddressByte n = some (BitVec.ofNat 8 (0x80 + n)) := by
  rw [ddramAddressByte_sum, if_pos (ddramOffsetOk_iff.2 (by omega)), ← BitVec.ofInt_natCast, Int.natCast_add]
  rfl

/-- A text that fits a row of the display is planned as the SENDs of that row (R151). -/
theorem planTextAt_fits {s : State} (hu : Usable s) {row : Int} {base : Nat} (hb : RowBase row base) (hr : row < s.rows)
    {text : List Byte} {column : Nat} (hfit : text.length + column ≤ s.columns) :
    planTextAt s text row column =
      .go (sendAll s.cfg s.ds.backlightOn (textSends s.cfg s.columns base column text)) := by
  obtain ⟨h0, hoff⟩ := hb.rowOffset_toNat
  have hle := hb.add_le hu.geometry hr
  have hlong : ¬ (text.length : Int) > s.columns - (column : Int) := by omega
  have hrow : rowInRange s row = true := rowInRange_iff.2 ⟨h0, hr⟩
  have hcol : columnInRange s column = true := columnInRange_iff.2 (by omega)
  have hstart : cellAddress row 0 = base := by simp [cellAddress, hoff]
  have hposition : cellAddress row column = (base + column : Nat) := by simp [cellAddress, hoff]
  have hbase : ddramAddressByte base = _ := ddramAddressByte_ofNat (n := base) (by omega)
  have hcell : ddramAddressByte (base + column : Nat) = _ := ddramAddressByte_ofNat (by omega)
  rw [sendAll_textSends, Nat.add_assoc]
  simp only [planTextAt, hlong, hrow, hcol, hstart, hposition, hbase, hcell, Bool.not_true, Bool.false_eq_true, if_false,
    List.append_assoc]

/-- Settles O27: both forms plan the SENDs of the row. -/
theorem textOperationsClearPositionAndWrite : Obligations.TextOperationsClearPositionAndWrite := by
  intro s text row base column hu hb hr hfit
  refine ⟨transmits_of_plan rfl (planTextAt_fits hu hb hr hfit) hu.opened, ?_⟩
  rintro rfl
  exact transmits_of_plan rfl (planTextAt_fits hu hb hr hfit) hu.opened

end Sys2Proof.Machine
end

section
/-! SUPPORT. The size of a layout (45_text_layout.md R166): its rows, the columns of each, and its elements in all. -/

namespace Sys2Proof.Machine

/-- Lines as the loop of the layout holds them: as many as the display has rows, none longer than a row, and at most `size`
elements in all. -/
structure LinesFit (rows columns size : Nat) (acc : List (List Byte)) : Prop where
  length : acc.length = rows
  lines  : ∀ line ∈ acc, line.length ≤ columns
  total  : acc.flatten.length ≤ size

theorem LinesFit.mono {rows columns size size' : Nat} {acc : List (List Byte)} (h : LinesFit rows columns size acc)
    (hle : size ≤ size') : LinesFit rows columns size' acc := ⟨h.length, h.lines, h.total.trans hle⟩

theorem linesFit_replicate (rows columns : Nat) : LinesFit rows columns 0 (List.replicate rows []) where
  length := List.length_replicate
  lines line h := by simp [List.eq_of_mem_replicate h]
  total := by simp

theorem length_appendAt (acc : List (List Byte)) (row : Nat) (c : Byte) : (appendAt acc row c).length = acc.length := by
  induction acc generalizing row with
  | nil => rfl
  | cons line rest ih =>
    cases row with
    | zero => rfl
    | succ row => exact congrArg (· + 1) (ih row)

theorem length_flatten_appendAt (acc : List (List Byte)) (row : Nat) (c : Byte) :
    (appendAt acc row c).flatten.length ≤ acc.flatten.length + 1 := by
  induction acc generalizing row with
  | nil => exact Nat.zero_le _
  | cons line rest ih =>
    cases row with
    | zero =>
      simp only [appendAt, List.flatten_cons, List.length_append, List.length_singleton]
      omega
    | succ row =>
      have := ih row
      simp only [appendAt, List.flatten_cons, List.length_append]
      omega

theorem mem_appendAt {acc : List (List Byte)} {row : Nat} {c : Byte} {line : List Byte} (h : line ∈ appendAt acc row c) :
    line ∈ acc ∨ line.length = rowLength acc row + 1 := by
  induction acc generalizing row with
  | nil => exact .inl h
  | cons first rest ih =>
    cases row with
    | zero =>
      obtain rfl | h := List.mem_cons.1 h
      · exact .inr (by simp [rowLength])
      · exact .inl (List.mem_cons_of_mem _ h)
    | succ row =>
      obtain rfl | h := List.mem_cons.1 h
      · exact .inl List.mem_cons_self
      · exact (ih h).imp_left (List.mem_cons_of_mem _)

theorem LinesFit.appendAt {rows columns size : Nat} {acc : List (List Byte)} (h : LinesFit rows columns size acc) {row : Nat}
    (hroom : rowLength acc row < columns) (c : Byte) : LinesFit rows columns (size + 1) (appendAt acc row c) where
  length := (length_appendAt ..).trans h.length
  lines line hl := by
    obtain hl | hl := mem_appendAt hl
    · exact h.lines line hl
    · omega
  total := (length_flatten_appendAt ..).trans (Nat.add_le_add_right h.total 1)

theorem LinesFit.layoutLoop {lineBreak space : Byte} {rows columns size : Nat} {text : List Byte} {trim : Bool} {row : Nat}
    {acc : List (List Byte)} (h : LinesFit rows columns size acc) :
    LinesFit rows columns (size + text.length) (layoutLoop lineBreak space rows columns text trim row acc) := by
  induction text generalizing size trim row acc with
  | nil => exact h
  | cons c rest ih =>
    have skipped (trim : Bool) (row : Nat) :
        LinesFit rows columns (size + (c :: rest).length) (Machine.layoutLoop lineBreak space rows columns rest trim row acc) :=
      (ih h).mono (by simp)
    have stored (hroom : rowLength acc row < columns) (trim : Bool) (row' : Nat) :
        LinesFit rows columns (size + (c :: rest).length)
          (Machine.layoutLoop lineBreak space rows columns rest trim row' (Machine.appendAt acc row c)) :=
      (ih (h.appendAt hroom c)).mono (by simp only [List.length_cons]; omega)
    unfold Machine.layoutLoop
    split
    · exact skipped ..
    · split
      · split
        · exact skipped ..
        · exact h.mono (Nat.le_add_right ..)
      · split
        · rename_i hroom
          split
          · exact stored hroom ..
          · exact stored hroom ..
        · exact skipped ..

/-- A text that passes the length check is laid out within the geometry and without further elements (R161, R166). -/
theorem layout_linesFit (p : Params) {text : List Byte} {rows columns : Nat} (hlen : text.length ≤ rows * columns) :
    ∃ acc, layout p text rows columns = .ok acc ∧ LinesFit rows columns text.length acc := by
  refine ⟨_, if_neg (Nat.not_lt.2 hlen), ?_⟩
  rw [← Nat.zero_add text.length]
  exact (linesFit_replicate rows columns).layoutLoop

end Sys2Proof.Machine
end

section
/-! PROOFS. The text operations on the panel (44_text_ops.md R150 to R152, 45_text_layout.md R167): what the runs of data of
a row, and the rows of a laid-out text, leave in DDRAM. -/

namespace Sys2Proof.Machine

/-! ## Data bytes received in DDRAM -/

/-- What a memory reads as once `bytes` have been stored over the contents `before`, from address `k` on. -/
def storedFrom (k : Nat) (bytes : List Byte) (before : Nat → Option Byte) (a : Nat) : Option Byte :=
  if k ≤ a ∧ a < k + bytes.length then bytes[a - k]? else before a

theorem storedFrom_nil (k : Nat) (before : Nat → Option Byte) : storedFrom k [] before = before := by
  funext a
  exact if_neg (by simp)

/-- The first byte is stored, then the others from the next address on. -/
theorem storedFrom_cons (k : Nat) (b : Byte) (rest : List Byte) (before : Nat → Option Byte) :
    storedFrom k (b :: rest) before = storedFrom (k + 1) rest (fun a => if a = k then some b else before a) := by
  funext a
  simp only [storedFrom, List.length_cons]
  rcases Nat.lt_trichotomy a k with hlt | rfl | hgt
  · rw [if_neg (by omega), if_neg (by omega), if_neg (by omega)]
  · rw [if_pos (by omega), if_neg (by omega), if_pos rfl, Nat.sub_self, List.getElem?_cons_zero]
  · obtain ⟨j, rfl⟩ := Nat.exists_eq_add_of_lt hgt
    have hsub : k + j + 1 - k = j + 1 ∧ k + j + 1 - (k + 1) = j := by omega
    rw [hsub.1, hsub.2, List.getElem?_cons_succ, if_neg (show k + j + 1 ≠ k by omega)]
    exact if_congr (by omega) rfl rfl

/-- The image of a row is its spaces, then its text, stored over what was there (R151, R152). -/
theorem rowImage_eq_storedFrom (columns : Nat) (space : Byte) (base column : Nat) (text : List Byte) :
    rowImage columns space base column text =
      storedFrom (base + column) text ∘ storedFrom base (List.replicate columns space) := by
  funext before a
  simp only [Function.comp_apply, storedFrom, rowImage, List.length_replicate]
  split
  · rfl
  · split
    · rw [List.getElem?_replicate, if_pos (by omega)]
    · rfl

/-- From `q` to `r` the contents of DDRAM have gone through `image`; the entry mode and CGRAM are the same. -/
structure PanelPrinted (image : (Nat → Option Byte) → Nat → Option Byte) (q r : Panel) : Prop where
  entry : r.entry = q.entry
  cgram : r.cgram = q.cgram
  ddram : Memory.read r.ddram = image (Memory.read q.ddram)

/-- Data bytes received in DDRAM with the address going up are stored from its address `k` on. -/
theorem receiveAll_ddram {cfg : Params} (bytes : List Byte) (n : Nat) {q : Panel} {k : Nat}
    (hup : goesUp cfg.panelUp q.entry = true) (ha : q.address = .ddram (BitVec.ofNat 7 k)) (hk : k + bytes.length ≤ 127) :
    PanelPrinted (storedFrom k bytes) q (q.receiveAll cfg n bytes) := by
  induction bytes generalizing n q k with
  | nil => exact ⟨rfl, rfl, (storedFrom_nil ..).symm⟩
  | cons b rest ih =>
    rw [List.length_cons] at hk
    have hfirst := receiveData_of_ddram cfg (n + 5) b ha
    have hk7 : (BitVec.ofNat 7 k).toNat = k := by rw [BitVec.toNat_ofNat]; omega
    have hnext : (q.receiveData cfg (n + 5) b).address = .ddram (BitVec.ofNat 7 (k + 1)) := by
      rw [hfirst, hup, moveAddr_ddram_up _ (by bv_omega), BitVec.ofNat_add]
      rfl
    have hread : Memory.read (q.receiveData cfg (n + 5) b).ddram = fun a => if a = k then some b else Memory.read q.ddram a := by
      funext a
      rw [hfirst, Memory.read_write, hk7]
    obtain ⟨hentry, hcgram, hddram⟩ := ih (n + 6) (by rwa [receiveData_entry]) hnext (by omega)
    exact ⟨hentry.trans (receiveData_entry ..), hcgram.trans (by rw [hfirst]), by
      rw [storedFrom_cons, ← hread]; exact hddram⟩

/-! ## Event lists that print -/

/-- The event list, answered Ok with the panel in phase and its address going up, leaves it in phase, and takes the contents
of DDRAM through `image` and nothing else. -/
def Prints (p : Params) (image : (Nat → Option Byte) → Nat → Option Byte) (acts : List Act) : Prop :=
  ∀ t : State, t.cfg = p → InPhase t → goesUp p.panelUp t.panel.entry = true →
    InPhase (applyOk acts t) ∧ PanelPrinted image t.panel (applyOk acts t).panel

theorem prints_nil (p : Params) : Prints p id [] := fun _ _ hp _ => ⟨hp, rfl, rfl, rfl⟩

theorem Prints.append {p : Params} {f g : (Nat → Option Byte) → Nat → Option Byte} {a b : List Act} (ha : Prints p f a)
    (hb : Prints p g b) : Prints p (g ∘ f) (a ++ b) := by
  intro t hc hp hup
  obtain ⟨hp₁, hentry₁, hcgram₁, hddram₁⟩ := ha t hc hp hup
  obtain ⟨hp₂, hentry₂, hcgram₂, hddram₂⟩ := hb _ ((applyOk_untouched a t).cfg.trans hc) hp₁ (by rwa [hentry₁])
  rw [applyOk_append]
  exact ⟨hp₂, hentry₂.trans hentry₁, hcgram₂.trans hcgram₁, by rw [hddram₂, hddram₁]; rfl⟩

section
variable {s : State} (hu : Usable s)
include hu

/-- An address command and the data after it store the data from that address on. -/
theorem prints_command_dataAll {k : Nat} {bytes : List Byte} (hk : k + bytes.length ≤ 127) :
    Prints s.cfg (storedFrom k bytes) (s.command (BitVec.ofNat 8 (0x80 + k)) ++ s.dataAll bytes) := by
  intro t hc hp hup
  have hv : commandByte s.cfg (.setDdramAddr k) = some (BitVec.ofNat 8 (0x80 + k)) := ddramAddressByte_ofNat (by omega)
  obtain ⟨hphase, hpanel⟩ := applyOk_command_dataAll (hc ▸ hu.params) hc hp (c := .setDdramAddr k) rfl hv bytes
  rw [hpanel]
  obtain ⟨hentry, hcgram, hddram⟩ := receiveAll_ddram (cfg := s.cfg) bytes (t.ticks + 6)
    (q := t.panel.receiveCommand (t.ticks + 5) (.setDdramAddr k)) hup rfl hk
  exact ⟨hphase, hentry, hcgram, hddram⟩

theorem prints_textSends {row : Int} {base : Nat} (hb : RowBase row base) (hr : row < s.rows) {text : List Byte}
    {column : Nat} (hfit : text.length + column ≤ s.columns) :
    Prints s.cfg (rowImage s.columns s.cfg.space base column text)
      (sendAll s.cfg s.ds.backlightOn (textSends s.cfg s.columns base column text)) := by
  have hle := hb.add_le hu.geometry hr
  rw [sendAll_textSends, Nat.add_assoc, rowImage_eq_storedFrom]
  exact (prints_command_dataAll hu (by rw [List.length_replicate]; omega)).append (prints_command_dataAll hu (by omega))

/-! ## The rows of a laid-out text -/

/-- A row of the display starts at its ROW_OFFSET (R25). -/
theorem Usable.rowBase {r : Nat} (hr : r < s.rows) : RowBase r (rowOffset r) := by
  have hg := hu.geometry
  simp only [geometryOk, Bool.and_eq_true, decide_eq_true_eq] at hg
  obtain ⟨⟨⟨-, h4⟩, -⟩, -⟩ := hg
  obtain rfl | rfl | rfl | rfl : r = 0 ∨ r = 1 ∨ r = 2 ∨ r = 3 := by omega
  all_goals simp [RowBase, rowOffset]

section
variable {lines : List (List Byte)} {r : Nat} (hrows : r + lines.length ≤ s.rows)
  (hlines : ∀ line ∈ lines, line.length ≤ s.columns)
include hrows hlines

/-- Lines that fit the rows from `r` on are planned as the SENDs of these rows (R167). -/
theorem planRows_go : planRows s lines r = .go (sendAll s.cfg s.ds.backlightOn (rowSends s.cfg s.columns lines r)) := by
  induction lines generalizing r with
  | nil => rfl
  | cons line rest ih =>
    rw [List.length_cons] at hrows
    obtain ⟨hline, hrest⟩ := List.forall_mem_cons.1 hlines
    have hfirst : planTextAt s line r 0 = _ := planTextAt_fits hu (hu.rowBase (by omega)) (by omega) (column := 0) hline
    rw [planRows, hfirst, ih (by omega) hrest, rowSends, sendAll_append]
    rfl

/-- The SENDs of the rows print these in order: a later row stands where two overlap (R228). -/
theorem prints_rowSends : Prints s.cfg (rowsImage s.columns s.cfg.space lines r)
    (sendAll s.cfg s.ds.backlightOn (rowSends s.cfg s.columns lines r)) := by
  induction lines generalizing r with
  | nil => exact prints_nil _
  | cons line rest ih =>
    rw [List.length_cons] at hrows
    obtain ⟨hline, hrest⟩ := List.forall_mem_cons.1 hlines
    rw [rowSends, sendAll_append]
    exact (prints_textSends hu (hu.rowBase (by omega)) (by omega) hline).append (ih (by omega) hrest)

end

/-- A text within the limit is planned as the SENDs of the rows of its layout (R167). -/
theorem planLayoutText_go {text : List Byte} {acc : List (List Byte)} (hacc : layout s.cfg text s.rows s.columns = .ok acc)
    (hfits : LinesFit s.rows s.columns text.length acc) :
    planLayoutText s text = .go (sendAll s.cfg s.ds.backlightOn (rowSends s.cfg s.columns acc 0)) := by
  rw [planLayoutText, hacc]
  exact planRows_go hu (by rw [Nat.zero_add, hfits.length]) hfits.lines

end

/-! ## The writes of a text operation -/

theorem countWrites_sendAll (p : Params) (bl : Bool) (sends : List (Bool × Byte)) :
    countWrites (sendAll p bl sends) = 6 * sends.length := by
  induction sends with
  | nil => rfl
  | cons x rest ih =>
    rw [sendAll, countWrites_append, ih, countWrites_send, List.length_cons, Nat.mul_succ, Nat.add_comm]

theorem length_textSends (p : Params) (columns base column : Nat) (text : List Byte) :
    (textSends p columns base column text).length = columns + 2 + text.length := by
  simp only [textSends, List.length_append, List.length_cons, List.length_replicate, List.length_map]
  omega

theorem length_rowSends (p : Params) (columns : Nat) (lines : List (List Byte)) (r : Nat) :
    (rowSends p columns lines r).length = lines.length * (columns + 2) + lines.flatten.length := by
  induction lines generalizing r with
  | nil => simp [rowSends]
  | cons line rest ih =>
    rw [rowSends, List.length_append, length_textSends, ih, List.length_cons, List.flatten_cons, List.length_append,
      Nat.succ_mul]
    omega

/-! ## The operations -/

/-- An operation that transmits a list of SENDs that print, with Ok answers to all of them. -/
theorem exec_prints {i : Instr} {s : State} {sends : List (Bool × Byte)} {image : (Nat → Option Byte) → Nat → Option Byte}
    (hx : exec i s = transmit s (sendAll s.cfg s.ds.backlightOn sends))
    (hprints : Prints s.cfg image (sendAll s.cfg s.ds.backlightOn sends)) {n : Nat} (hn : sends.length ≤ n)
    (hk : OkFor s (6 * n)) (hp : InPhase s) (hup : goesUp s.cfg.panelUp s.panel.entry = true) :
    ∃ t, exec i s = .next t ∧ t.result = some .ok ∧ InPhase t ∧
      (∀ a, Memory.read t.panel.ddram a = image (Memory.read s.panel.ddram) a) ∧
      (∀ a, Memory.read t.panel.cgram a = Memory.read s.panel.cgram a) := by
  have hwrites : countWrites (sendAll s.cfg s.ds.backlightOn sends) ≤ 6 * n := by
    rw [countWrites_sendAll]
    omega
  obtain ⟨hphase, hpanel⟩ := hprints s rfl hp hup
  exact ⟨_, hx.trans (transmit_ok hwrites hk), rfl, hphase.congr rfl rfl rfl, congrFun hpanel.ddram,
    congrFun (congrArg Memory.read hpanel.cgram)⟩

/-- Settles O57: the SENDs of a row are two runs of data from two addresses; those of a layout are the SENDs of its rows. -/
theorem textFillsItsRow : Obligations.TextFillsItsRow := by
  refine ⟨fun s text row base column i hu hp hk hup hb hr hfit hi => ?_, fun s text hu hp hk hup hlen => ?_⟩
  · have hplan := planTextAt_fits hu hb hr hfit
    have hx : exec i s = transmit s (sendAll s.cfg s.ds.backlightOn (textSends s.cfg s.columns base column text)) := by
      obtain rfl | ⟨rfl, rfl⟩ := hi
      · exact exec_opened_of_plan rfl hplan hu.opened
      · exact exec_opened_of_plan rfl hplan hu.opened
    exact exec_prints hx (prints_textSends hu hb hr hfit) (length_textSends ..).le hk hp hup
  · obtain ⟨acc, hacc, hfits⟩ := layout_linesFit s.cfg hlen
    have hprints := prints_rowSends hu (r := 0) (by rw [Nat.zero_add, hfits.length]) hfits.lines
    have hsends : (rowSends s.cfg s.columns acc 0).length ≤ s.rows * (s.columns + 2) + text.length := by
      rw [length_rowSends, hfits.length]
      exact Nat.add_le_add_left hfits.total _
    have hx : exec (.layoutText text) s = transmit s (sendAll s.cfg s.ds.backlightOn (rowSends s.cfg s.columns acc 0)) :=
      exec_opened_of_plan rfl (planLayoutText_go hu hacc hfits) hu.opened
    obtain ⟨t, ht⟩ := exec_prints hx hprints hsends hk hp hup
    exact ⟨acc, t, hacc, ht⟩

end Sys2Proof.Machine
end

section
/-! SUPPORT. The loop of the layout, row by row (45_text_layout.md R160): what one element does to the current row, and what
the rows after it get (R162 to R165). -/

namespace Sys2Proof.Machine

/-- A row already left is not touched again: the loop is past it, on the rows that follow. -/
theorem layoutLoop_succ_row (lineBreak space : Byte) (rows columns : Nat) (text : List Byte) (trim : Bool) (row : Nat)
    (line : List Byte) (acc : List (List Byte)) :
    layoutLoop lineBreak space (rows + 1) columns text trim (row + 1) (line :: acc) =
      line :: layoutLoop lineBreak space rows columns text trim row acc := by
  induction text generalizing trim row acc with
  | nil => rfl
  | cons c rest ih =>
    have hlength : rowLength (line :: acc) (row + 1) = rowLength acc row := rfl
    have hstore : appendAt (line :: acc) (row + 1) c = line :: appendAt acc row c := rfl
    simp only [layoutLoop, hlength, hstore, ih, Nat.add_lt_add_iff_right]
    split_ifs <;> rfl

/-- The loop with `cur` in its current row and `rows` empty rows after it. -/
def layoutRow (lineBreak space : Byte) (columns rows : Nat) (text : List Byte) (trim : Bool) (cur : List Byte) :
    List (List Byte) :=
  layoutLoop lineBreak space (rows + 1) columns text trim 0 (cur :: List.replicate rows [])

/-- What the `rows` rows after a row just left hold of the text that follows; where there are none it is dropped (R165). -/
def nextRows (lineBreak space : Byte) (columns : Nat) : Nat → List Byte → List (List Byte)
  | 0, _ => []
  | rows + 1, text => layoutRow lineBreak space columns rows text true []

theorem nextRows_nil (lineBreak space : Byte) (columns rows : Nat) :
    nextRows lineBreak space columns rows [] = List.replicate rows [] := by
  cases rows with
  | zero => rfl
  | succ rows => rfl

/-- The single-space trim (R164): the element right after an advance is skipped if it is a space. -/
theorem layoutLoop_trim (lineBreak space : Byte) (rows columns : Nat) (text : List Byte) (row : Nat)
    (acc : List (List Byte)) :
    layoutLoop lineBreak space rows columns text true row acc =
      layoutLoop lineBreak space rows columns (if text.head? = some space then text.tail else text) false row acc := by
  cases text with
  | nil => rfl
  | cons c rest =>
    by_cases hc : c = space
    · simp [layoutLoop, hc]
    · simp [layoutLoop, hc]

theorem nextRows_eq (lineBreak space : Byte) (columns rows : Nat) (text : List Byte) :
    nextRows lineBreak space columns rows text =
      if rows = 0 then [] else
        layoutLoop lineBreak space rows columns (if text.head? = some space then text.tail else text) false 0
          (List.replicate rows []) := by
  cases rows with
  | zero => rfl
  | succ rows => exact layoutLoop_trim ..

/-- One element: a trimmed space is skipped; a line break leaves the row as it is (R162, R165); any other element is stored
while the row has room, and the row it fills is left if there is another (R163), else what comes then is dropped (R165). -/
theorem layoutRow_cons (lineBreak space : Byte) (columns rows : Nat) (c : Byte) (rest : List Byte) (trim : Bool)
    (cur : List Byte) :
    layoutRow lineBreak space columns rows (c :: rest) trim cur =
      if trim && c == space then layoutRow lineBreak space columns rows rest false cur
      else if c = lineBreak then cur :: nextRows lineBreak space columns rows rest
      else if cur.length < columns then
        if cur.length + 1 = columns ∧ 0 < rows then (cur ++ [c]) :: nextRows lineBreak space columns rows rest
        else layoutRow lineBreak space columns rows rest false (cur ++ [c])
      else layoutRow lineBreak space columns rows rest false cur := by
  have hlength (acc : List (List Byte)) : rowLength (cur :: acc) 0 = cur.length := rfl
  have hstore (acc : List (List Byte)) : appendAt (cur :: acc) 0 c = (cur ++ [c]) :: acc := rfl
  cases rows with
  | zero => simp [layoutRow, layoutLoop, nextRows, hlength, hstore]
  | succ rows =>
    simp [layoutRow, layoutLoop, nextRows, hlength, hstore, List.replicate_succ, layoutLoop_succ_row]

section
variable {lineBreak space : Byte} {columns : Nat}

/-- Once the last row is full nothing can be stored any more (R165). -/
theorem layoutRow_last_full {cur : List Byte} (hfull : columns ≤ cur.length) (text : List Byte) (trim : Bool) :
    layoutRow lineBreak space columns 0 text trim cur = [cur] := by
  induction text generalizing trim with
  | nil => rfl
  | cons c rest ih => simp [layoutRow_cons, nextRows, Nat.not_lt.2 hfull, ih]

section
variable {line : List Byte} (hbreak : lineBreak ∉ line) (rows : Nat) (rest : List Byte)
include hbreak

/-- Elements that do not fill the current row are stored in it. -/
theorem layoutRow_append {cur : List Byte} (hroom : cur.length + line.length < columns) :
    layoutRow lineBreak space columns rows (line ++ rest) false cur =
      layoutRow lineBreak space columns rows rest false (cur ++ line) := by
  induction line generalizing cur with
  | nil => simp
  | cons c line ih =>
    obtain ⟨hc, hline⟩ := List.ne_and_not_mem_of_not_mem_cons hbreak
    rw [List.length_cons] at hroom
    have hcols : cur.length < columns ∧ cur.length + 1 ≠ columns := by omega
    have hnext := ih hline (cur := cur ++ [c]) (by simp; omega)
    simpa [layoutRow_cons, Ne.symm hc, hcols] using hnext

/-- The first `columns` elements fill the row, and the text goes on in the rows after it (R163). A text that passes the
length check is empty where there are no columns. -/
theorem layoutRow_full_line (hline : line.length = columns) (hlen : (line ++ rest).length ≤ (rows + 1) * columns) :
    layoutRow lineBreak space columns rows (line ++ rest) false [] = line :: nextRows lineBreak space columns rows rest := by
  obtain rfl | ⟨init, c, rfl⟩ := List.eq_nil_or_concat' line
  · obtain rfl : rest = [] := by simpa [← hline] using hlen
    rw [nextRows_nil]
    rfl
  · obtain ⟨hinit, hc⟩ : lineBreak ∉ init ∧ lineBreak ≠ c := by simpa using hbreak
    have hcols : init.length + 1 = columns := by simpa using hline
    have hroom : init.length < columns := by omega
    rw [List.append_assoc, layoutRow_append hinit rows _ (by simpa using hroom), List.nil_append, List.singleton_append,
      layoutRow_cons, Bool.false_and, if_neg Bool.false_ne_true, if_neg hc.symm, if_pos hroom]
    cases rows with
    | zero => exact (if_neg (by simp)).trans (layoutRow_last_full hline.ge rest false)
    | succ rows => exact if_pos ⟨hcols, Nat.succ_pos rows⟩

end

end

theorem layout_eq (p : Params) {text : List Byte} {rows columns : Nat} (hlen : text.length ≤ rows * columns) :
    layout p text rows columns =
      .ok (layoutLoop p.lineBreak p.space rows columns text false 0 (List.replicate rows [])) := if_neg (Nat.not_lt.2 hlen)

theorem layout_error (p : Params) {text : List Byte} {rows columns : Nat} (hlen : rows * columns < text.length) :
    layout p text rows columns = .error .textTooLong := if_pos hlen

/-- The length check and nothing else decides between a layout and TextTooLong (R161). -/
theorem layout_ok_iff {p : Params} {text : List Byte} {rows columns : Nat} {acc : List (List Byte)} :
    layout p text rows columns = .ok acc ↔ text.length ≤ rows * columns ∧
      layoutLoop p.lineBreak p.space rows columns text false 0 (List.replicate rows []) = acc := by
  obtain hlen | hlen := Nat.lt_or_ge (rows * columns) text.length
  · simp [layout_error p hlen, hlen]
  · rw [layout_eq p hlen, Except.ok.injEq, and_iff_right hlen]

end Sys2Proof.Machine
end

section
/-! PROOFS. The layout of a text (45_text_layout.md R161 to R167): its length check, its rows, where the text is cut, and
the rows LAYOUT_TEXT sends. -/

namespace Sys2Proof.Machine

/-- Settles O29: a text that passes the check is planned as the SENDs of its rows. -/
theorem layoutTextRendersEveryRow : Obligations.LayoutTextRendersEveryRow := by
  intro s text hu hlen
  obtain ⟨acc, hacc, hfits⟩ := layout_linesFit s.cfg hlen
  exact ⟨acc, hacc, transmits_of_plan rfl (planLayoutText_go hu hacc hfits) hu.opened⟩

/-! ## The length check -/

theorem planTextAt_ne_tooLong {s : State} {line : List Byte} (hline : line.length ≤ s.columns) (row : Int) :
    planTextAt s line row 0 ≠ .raise .textTooLong := by
  have hfits : ¬ (line.length : Int) > s.columns - 0 := by omega
  unfold planTextAt
  rw [if_neg hfits]
  split
  · simp
  · split
    · simp
    · split <;> simp

theorem Plan.append_ne_raise {a b : Plan} {e : HostResult} (ha : a ≠ .raise e) (hb : b ≠ .raise e) :
    a.append b ≠ .raise e := by
  cases a with
  | go acts =>
    cases b with
    | raise f => exact hb
    | go _ => exact Plan.noConfusion
    | outsideEncoder => exact Plan.noConfusion
  | raise f => exact ha
  | outsideEncoder => exact ha

theorem planRows_ne_tooLong {s : State} {lines : List (List Byte)} (hlines : ∀ line ∈ lines, line.length ≤ s.columns)
    (r : Nat) :
    planRows s lines r ≠ .raise .textTooLong := by
  induction lines generalizing r with
  | nil => exact Plan.noConfusion
  | cons line rest ih =>
    obtain ⟨hline, hrest⟩ := List.forall_mem_cons.1 hlines
    exact Plan.append_ne_raise (planTextAt_ne_tooLong hline r) (ih hrest (r + 1))

/-- LAYOUT_TEXT raises TextTooLong by the check of the layout alone: no inner row operation does, in any state (R167). -/
theorem planLayoutText_tooLong_iff {s : State} {text : List Byte} :
    planLayoutText s text = .raise .textTooLong ↔ s.rows * s.columns < text.length := by
  refine ⟨fun hraise => Nat.lt_of_not_le fun hlen => ?_, planLayoutText_long⟩
  obtain ⟨acc, hacc, hfits⟩ := layout_linesFit s.cfg hlen
  rw [planLayoutText, hacc] at hraise
  exact planRows_ne_tooLong hfits.lines 0 hraise

theorem report_result (t : Traffic) : t.report.result = some (if t.ok then .ok else .transportError) := by
  unfold Traffic.report
  split <;> rfl

/-- A plan carried out gives the host a validation error exactly if it raises it (R188). -/
theorem runPlan_result_iff {s t : State} {plan : Plan} (h : runPlan s plan = .next t) {e : HostResult} (hok : e ≠ .ok)
    (htransport : e ≠ .transportError) : t.result = some e ↔ plan = .raise e := by
  obtain ⟨acts, rfl, rfl⟩ | ⟨f, rfl, rfl⟩ := runPlan_next h
  · rw [report_result]
    split
    · simp [hok.symm]
    · simp [htransport.symm]
  · simp [State.raiseError, State.answer]

/-- Settles O30: the layout by its one check; LAYOUT_TEXT because it gives TextTooLong exactly if its plan raises it. -/
theorem layoutFailsExactlyOnTooLongTexts : Obligations.LayoutFailsExactlyOnTooLongTexts := by
  refine ⟨fun p text rows columns => ⟨by simp [layout_ok_iff], layout_error p⟩, fun s t text h => ?_⟩
  rw [exec_transmission rfl] at h
  exact (runPlan_result_iff (whenOpen_next h).2 (by decide) (by decide)).trans planLayoutText_tooLong_iff

/-! ## The rows of a layout -/

/-- What the rows get is a subsequence of the text without its line breaks. -/
theorem layoutRow_flatten_sublist (lineBreak space : Byte) (columns rows : Nat) (text : List Byte) (trim : Bool)
    (cur : List Byte) :
    (layoutRow lineBreak space columns rows text trim cur).flatten.Sublist (cur ++ text.filter (· != lineBreak)) := by
  induction text generalizing rows trim cur with
  | nil => simp [layoutRow, layoutLoop]
  | cons c rest ih =>
    have hnext : (nextRows lineBreak space columns rows rest).flatten.Sublist (rest.filter (· != lineBreak)) := by
      cases rows with
      | zero => exact List.nil_sublist _
      | succ rows => exact ih rows true []
    have hskip : (cur ++ rest.filter (· != lineBreak)).Sublist (cur ++ (c :: rest).filter (· != lineBreak)) :=
      ((List.sublist_cons_self c rest).filter _).append_left cur
    rw [layoutRow_cons]
    split
    · exact (ih rows false cur).trans hskip
    · split
      · exact (hnext.append_left cur).trans hskip
      · rename_i hc
        have hkept : cur ++ (c :: rest).filter (· != lineBreak) = (cur ++ [c]) ++ rest.filter (· != lineBreak) := by
          simp [hc]
        split
        · rw [hkept]
          split
          · exact hnext.append_left _
          · exact ih rows false _
        · exact (ih rows false cur).trans hskip

/-- R166 (c) for the layout of a text that passes the check. -/
theorem layout_flatten_sublist {p : Params} {text : List Byte} {rows columns : Nat} {acc : List (List Byte)}
    (h : layout p text rows columns = .ok acc) : acc.flatten.Sublist (text.filter (· != p.lineBreak)) := by
  obtain ⟨hlen, rfl⟩ := layout_ok_iff.1 h
  cases rows with
  | zero =>
    obtain rfl : text = [] := by simpa using hlen
    exact List.nil_sublist _
  | succ rows => exact layoutRow_flatten_sublist p.lineBreak p.space columns rows text false []

/-- Settles O31: rows and columns by the size of a layout; the rest because only the other elements of the text are stored. -/
theorem layoutIsWithinTheGeometry : Obligations.LayoutIsWithinTheGeometry := by
  intro p text rows columns acc h
  obtain ⟨acc', hacc, hfits⟩ := layout_linesFit p (layout_ok_iff.1 h).1
  obtain rfl : acc' = acc := Except.ok.inj (hacc.symm.trans h)
  have hsub := layout_flatten_sublist h
  refine ⟨hfits.length, fun line hl => ⟨hfits.lines line hl, fun hbreak => ?_⟩, hsub.trans List.filter_sublist⟩
  have hstored := hsub.subset (List.mem_flatten_of_mem hl hbreak)
  simp at hstored

/-! ## Where a row ends -/

/-- The first row of a text without line breaks is its first `columns` elements; the others go to the next rows (R163). -/
theorem layoutRow_eq_take_cons {lineBreak : Byte} (space : Byte) {columns rows : Nat} {text : List Byte}
    (hbreak : lineBreak ∉ text) (hlen : text.length ≤ (rows + 1) * columns) :
    layoutRow lineBreak space columns rows text false [] =
      text.take columns :: nextRows lineBreak space columns rows (text.drop columns) := by
  obtain hshort | hlong := Nat.lt_or_ge text.length columns
  · have hstored := layoutRow_append (space := space) hbreak rows [] (cur := []) (by simpa using hshort)
    rw [List.append_nil] at hstored
    rw [List.take_of_length_le hshort.le, List.drop_eq_nil_of_le hshort.le, nextRows_nil]
    exact hstored
  · have hfull := layoutRow_full_line (space := space) (fun h => hbreak (List.mem_of_mem_take h)) rows (text.drop columns)
      (List.length_take_of_le hlong) (by simpa using hlen)
    rwa [List.take_append_drop] at hfull

/-- A text without line breaks and spaces fills the rows one after another (R163). -/
theorem layoutLoop_eq_map_take_drop {lineBreak space : Byte} {columns rows : Nat} {text : List Byte}
    (hbreak : lineBreak ∉ text) (hspace : space ∉ text) (hlen : text.length ≤ rows * columns) :
    layoutLoop lineBreak space rows columns text false 0 (List.replicate rows []) =
      (List.range rows).map (fun r => (text.drop (r * columns)).take columns) := by
  induction rows generalizing text with
  | zero =>
    obtain rfl : text = [] := by simpa using hlen
    rfl
  | succ rows ih =>
    have hspace' : space ∉ text.drop columns := fun h => hspace (List.mem_of_mem_drop h)
    have hhead : ¬ (text.drop columns).head? = some space := fun h => hspace' (List.mem_of_mem_head? h)
    have hlen' : (text.drop columns).length ≤ rows * columns := by
      rw [Nat.succ_mul] at hlen
      rw [List.length_drop]
      omega
    have hnext : nextRows lineBreak space columns rows (text.drop columns) =
        (List.range rows).map (fun r => ((text.drop columns).drop (r * columns)).take columns) := by
      rw [nextRows_eq, if_neg hhead, ih (fun h => hbreak (List.mem_of_mem_drop h)) hspace' hlen']
      cases rows with
      | zero => rfl
      | succ rows => rfl
    calc layoutLoop lineBreak space (rows + 1) columns text false 0 (List.replicate (rows + 1) [])
      _ = text.take columns :: nextRows lineBreak space columns rows (text.drop columns) :=
        layoutRow_eq_take_cons space hbreak hlen
      _ = text.take columns :: (List.range rows).map (fun r => ((text.drop columns).drop (r * columns)).take columns) := by
        rw [hnext]
      _ = (List.range (rows + 1)).map (fun r => (text.drop (r * columns)).take columns) := by
        simp [List.range_succ_eq_map, List.drop_drop, Nat.succ_mul, Nat.add_comm]

/-- Settles O32: the loop on a text that passes the check. -/
theorem layoutWrapsAtTheColumnBoundary : Obligations.LayoutWrapsAtTheColumnBoundary :=
  fun p _ _ _ hbreak hspace hlen => (layout_eq p hlen).trans (congrArg _ (layoutLoop_eq_map_take_drop hbreak hspace hlen))

/-- A line break ends the current row, which keeps what it has (R162, R165). -/
theorem layoutRow_line_break {lineBreak : Byte} (space : Byte) {line : List Byte} (hbreak : lineBreak ∉ line)
    {columns : Nat} (hroom : line.length < columns) (rows : Nat) (rest : List Byte) :
    layoutRow lineBreak space columns rows (line ++ lineBreak :: rest) false [] =
      line :: nextRows lineBreak space columns rows rest := by
  rw [layoutRow_append hbreak rows _ (by simpa using hroom), layoutRow_cons]
  simp

/-- Settles O33: either way the row is left with what it has, and the text goes on in the rows after it. -/
theorem lineBreakAdvancesOrEndsTheLayout : Obligations.LineBreakAdvancesOrEndsTheLayout := by
  intro p line rest rows columns hbreak
  dsimp only
  rw [← nextRows_eq]
  exact ⟨fun hroom hlen => (layout_eq p hlen).trans (congrArg _ (layoutRow_line_break p.space hbreak hroom rows rest)),
    fun hline hlen => (layout_eq p hlen).trans (congrArg _ (layoutRow_full_line hbreak rows rest hline hlen))⟩

end Sys2Proof.Machine
end

section
/-! SUPPORT. How an operation ends (60_exceptions.md R186 to R190): what a plan can raise and what it can transmit, the events
that traffic adds to the trace, and everything an operation can answer with a next state. -/

namespace Sys2Proof.Machine

/-! ## What a plan can be -/

/-- A plan made in the state `u`: what it raises is a validation error (R188), and an address encoder is called outside its
domain only where `u` is no usable session. -/
def Plan.Lawful (u : State) : Plan → Prop
  | .go _ => True
  | .raise e => e.isValidation = true
  | .outsideEncoder => ¬ Usable u

theorem Plan.Lawful.append {u : State} {a b : Plan} (ha : a.Lawful u) (hb : b.Lawful u) : (a.append b).Lawful u := by
  cases a with
  | go acts =>
    cases b with
    | go _ => trivial
    | raise e => exact hb
    | outsideEncoder => exact hb
  | raise e => exact ha
  | outsideEncoder => exact ha

/-- Every cell that passes the mapper's checks has an address the encoder accepts (R141, R211). -/
theorem ddramAddressByte_cellAddress {s : State} (hu : Usable s) {row column : Int} (hr : rowInRange s row = true)
    (hc : columnInRange s column = true) : ∃ b, ddramAddressByte (cellAddress row column) = some b := by
  obtain ⟨h0, hrow⟩ := rowInRange_iff.1 hr
  obtain ⟨h0', hcol⟩ := columnInRange_iff.1 hc
  obtain ⟨r, rfl⟩ := Int.eq_ofNat_of_zero_le h0
  obtain ⟨c, rfl⟩ := Int.eq_ofNat_of_zero_le h0'
  have hle := (hu.rowBase (r := r) (by omega)).add_le hu.geometry hrow
  exact ⟨_, ddramAddressByte_of_le (n := rowOffset r + c) (by omega)⟩

/-- Everything the mapper can answer (R141). -/
theorem ddramOf_cases (s : State) (column row : Int) :
    (∃ e, ddramOf s column row = .error e ∧ e.isValidation = true) ∨
    (rowInRange s row = true ∧ columnInRange s column = true ∧ ddramOf s column row = .ok (cellAddress row column)) := by
  unfold ddramOf
  cases hr : rowInRange s row
  · exact .inl ⟨_, rfl, rfl⟩
  · cases hc : columnInRange s column
    · exact .inl ⟨_, rfl, rfl⟩
    · exact .inr ⟨rfl, rfl, rfl⟩

section
variable (s : State)

theorem addressThen_lawful {command : Option Byte} (h : Usable s → ∃ b, command = some b) (rest : List Act) :
    (addressThen s command rest).Lawful s := by
  cases command with
  | some b => trivial
  | none =>
    intro hu
    obtain ⟨b, hb⟩ := h hu
    cases hb

theorem planCursorPosition_lawful (column row : Int) : (planCursorPosition s column row).Lawful s := by
  unfold planCursorPosition
  obtain ⟨e, he, hv⟩ | ⟨hr, hc, hok⟩ := ddramOf_cases s column row
  · rw [he]
    exact hv
  · rw [hok]
    exact addressThen_lawful s (fun hu => ddramAddressByte_cellAddress hu hr hc) []

theorem planCustomCharacter_lawful (location : Int) (bitmap : List Byte) :
    (planCustomCharacter s location bitmap).Lawful s := by
  unfold planCustomCharacter
  cases hloc : cgramLocationOk location
  · exact (rfl : HostResult.invalidCustomCharLocation.isValidation = true)
  · simp only [Bool.not_true, Bool.false_eq_true, if_false]
    split
    · exact (rfl : HostResult.invalidCustomCharLength.isValidation = true)
    · exact addressThen_lawful s (fun _ => ⟨_, if_pos hloc⟩) _

theorem planTextAt_lawful (text : List Byte) (row column : Int) : (planTextAt s text row column).Lawful s := by
  unfold planTextAt
  split
  · exact (rfl : HostResult.textTooLong.isValidation = true)
  · cases hr : rowInRange s row
    · exact (rfl : HostResult.lineOutOfRange.isValidation = true)
    · cases hc : columnInRange s column
      · exact (rfl : HostResult.columnOutOfRange.isValidation = true)
      · by_cases hu : Usable s
        · obtain ⟨rowStart, hstart⟩ := ddramAddressByte_cellAddress hu hr (column := 0) (columnInRange_iff.2 (by omega))
          obtain ⟨position, hposition⟩ := ddramAddressByte_cellAddress hu hr hc
          rw [hstart, hposition]
          trivial
        · simp only [Bool.not_true, Bool.false_eq_true, if_false]
          split
          · trivial
          · exact hu
          · exact hu

theorem planRows_lawful (lines : List (List Byte)) (r : Nat) : (planRows s lines r).Lawful s := by
  induction lines generalizing r with
  | nil => trivial
  | cons line rest ih => exact (planTextAt_lawful s line r 0).append (ih (r + 1))

theorem planLayoutText_lawful (text : List Byte) : (planLayoutText s text).Lawful s := by
  by_cases hlong : s.rows * s.columns < text.length
  · rw [planLayoutText_long hlong]
    exact (rfl : HostResult.textTooLong.isValidation = true)
  · rw [planLayoutText, layout_eq s.cfg (Nat.not_lt.1 hlong)]
    exact planRows_lawful s _ 0

end

/-- The operations with arguments are the only ones that check anything before they transmit (R188). -/
theorem planOf_lawful (u : State) {i : Instr} (hi : isTransmission i = true) : (planOf u i).Lawful u := by
  cases i
  case setCursorPosition column row => exact planCursorPosition_lawful ..
  case createCustomCharacter location bitmap => exact planCustomCharacter_lawful ..
  case displayTextRow text row => exact planTextAt_lawful ..
  case displayTextAt text row column => exact planTextAt_lawful ..
  case layoutText text => exact planLayoutText_lawful ..
  case init | close | clearDisplay | returnHome | entryModeSet | displayControl | cursorDisplayShift | functionSet
    | setCgramAddr | setDdramAddr => cases hi
  all_goals trivial

/-- An operation that can raise an error owns no field of DS (R28, R188). -/
theorem newDs_of_raise {u : State} {i : Instr} {e : HostResult} (h : planOf u i = .raise e) (ds : DisplayState) :
    newDs ds i = ds := by
  cases i
  case setBacklight | setDisplay | setCursorVisible | setCursorBlinking | setEntryMode => cases h
  all_goals rfl

/-! ## The events of traffic -/

/-- The events that traffic adds to the trace, with its outcome: waits and writes answered Ok and, where the traffic failed,
the failed write at the end (R93, D12). -/
inductive TrafficEvents : Bool → List Event → Prop
  | nil : TrafficEvents true []
  | failed (b : Byte) : TrafficEvents false [.write b false]
  | wait (ns : Nat) {ok : Bool} {ev : List Event} (h : TrafficEvents ok ev) : TrafficEvents ok (.wait ns :: ev)
  | write (b : Byte) {ok : Bool} {ev : List Event} (h : TrafficEvents ok ev) : TrafficEvents ok (.write b true :: ev)

theorem TrafficEvents.append {a b : List Event} {oka okb : Bool} (ha : TrafficEvents oka a) (hoka : oka = true)
    (hb : TrafficEvents okb b) : TrafficEvents okb (a ++ b) := by
  induction ha with
  | nil => exact hb
  | failed b => cases hoka
  | wait ns _ ih => exact .wait ns (ih hoka)
  | write b _ ih => exact .write b (ih hoka)

theorem TrafficEvents.ends_at_failure {ok : Bool} {ev : List Event} (h : TrafficEvents ok ev) (hok : ok = false) :
    ∃ before b, ev = before ++ [.write b false] ∧ ∀ c ok, Event.write c ok ∈ before → ok = true := by
  induction h with
  | nil => cases hok
  | failed b => exact ⟨[], b, rfl, nofun⟩
  | wait ns _ ih =>
    obtain ⟨before, b, rfl, hbefore⟩ := ih hok
    exact ⟨.wait ns :: before, b, rfl, fun c ok hc => hbefore c ok (by simpa using hc)⟩
  | write a _ ih =>
    obtain ⟨before, b, rfl, hbefore⟩ := ih hok
    refine ⟨.write a true :: before, b, rfl, fun c ok hc => ?_⟩
    obtain ⟨-, hc⟩ | hc : (c = a ∧ ok = true) ∨ Event.write c ok ∈ before := by simpa using hc
    · exact hc
    · exact hbefore c ok hc

theorem releases_append (a b : List Event) : releases (a ++ b) = releases a + releases b := by
  induction a with
  | nil => simp [releases]
  | cons e rest ih => cases e <;> simp [releases, ih, Nat.add_right_comm]

theorem TrafficEvents.releases {ok : Bool} {ev : List Event} (h : TrafficEvents ok ev) : releases ev = 0 := by
  induction h with
  | nil => rfl
  | failed b => rfl
  | wait ns _ ih => exact ih
  | write b _ ih => exact ih

/-- Traffic that started in `s`: since then the trace has grown by events that fit its outcome. -/
def Traffic.RanFrom (s : State) (t : Traffic) : Prop := ∃ ev, t.state.trace = s.trace ++ ev ∧ TrafficEvents t.ok ev

theorem perform_ranFrom (acts : List Act) (s : State) : (perform acts s).RanFrom s := by
  induction acts generalizing s with
  | nil => exact ⟨[], by simp [perform], .nil⟩
  | cons x rest ih =>
    cases x with
    | wait ns =>
      obtain ⟨ev, htr, hev⟩ := ih (s.emit (.wait ns))
      exact ⟨.wait ns :: ev, by simpa [perform] using htr, .wait ns hev⟩
    | write b =>
      simp only [perform]
      split
      · obtain ⟨ev, htr, hev⟩ := ih (s.writeOk b)
        exact ⟨.write b true :: ev, by simpa using htr, .write b hev⟩
      · exact ⟨_, rfl, .failed b⟩

theorem Traffic.RanFrom.andThen {s : State} {t : Traffic} (h : t.RanFrom s) {f : State → Traffic}
    (hf : ∀ u, (f u).RanFrom u) : (t.andThen f).RanFrom s := by
  unfold Traffic.andThen
  split
  · rename_i hok
    obtain ⟨ev, htr, hev⟩ := h
    obtain ⟨ev', htr', hev'⟩ := hf t.state
    exact ⟨ev ++ ev', by rw [htr', htr, List.append_assoc], hev.append hok hev'⟩
  · exact h

theorem initTraffic_ranFrom (s : State) : (initTraffic s).RanFrom s :=
  (((perform_ranFrom _ s).andThen fun u => perform_ranFrom _ (u.setDisplayOn u.cfg.initDisplayOn)).andThen
    fun u => perform_ranFrom _ (u.setBacklightOn true)).andThen fun _ => ⟨[], by simp [initPanel], .nil⟩

/-- The release follows the traffic of CLOSE, failed or not (R215, D14). -/
theorem closeTraffic_trace (s : State) :
    ∃ ev, (closeTraffic s).state.trace = s.trace ++ ev ++ [.release] ∧ TrafficEvents (closeTraffic s).ok ev := by
  obtain ⟨ev, htr, hev⟩ := perform_ranFrom ((s.setDisplayOn false).command (s.setDisplayOn false).dc) (s.setDisplayOn false)
  exact ⟨ev, congrArg (· ++ [Event.release]) htr, hev⟩

/-! ## The session over traffic -/

@[simp] theorem report_session (t : Traffic) : t.report.session = t.state.session := by
  unfold Traffic.report
  split <;> rfl

/-- No part of INIT's traffic writes SESSION (R217). -/
theorem initTraffic_session (s : State) : (initTraffic s).state.session = s.session := by
  have display (u : State) (hu : u.session = s.session) : (initDisplay u).state.session = s.session :=
    (perform_untouched _ (u.setDisplayOn u.cfg.initDisplayOn)).session.trans hu
  have backlight (u : State) (hu : u.session = s.session) : (initBacklight u).state.session = s.session :=
    (perform_untouched _ (u.setBacklightOn true)).session.trans hu
  have start : (initFunctionSet s).state.session = s.session := (perform_untouched _ _).session
  exact andThen_kept (P := fun u => u.session = s.session) (andThen_kept (andThen_kept start display) backlight)
    fun _ hu => hu

/-- Only INIT and CLOSE write SESSION (R23, R196). -/
theorem exec_session {i : Instr} (hi : ∀ rows columns, i ≠ .init rows columns) (hc : i ≠ .close) {s t : State}
    (h : exec i s = .next t) : t.session = s.session := by
  obtain ⟨rows, columns, rfl⟩ | rfl | he | ht := instr_class i
  · exact absurd rfl (hi rows columns)
  · exact absurd rfl hc
  · rw [exec_encoderCall he] at h
    obtain ⟨b, rfl⟩ := partialEncoder_next h
    rfl
  · obtain ⟨-, u, rfl, ⟨acts, -, rfl⟩ | ⟨e, rfl⟩⟩ := exec_transmission_next ht h
    · exact (report_session _).trans (perform_untouched _ _).session
    · rfl

/-! ## Everything an operation can answer -/

/-- How an operation that was run in `s` ended: it raised a validation error, was a CLOSE of a closed session, or came to the
end of its traffic, which in a CLOSE of an open session is followed by the release. -/
inductive Ended (i : Instr) (s : State) : State → Prop
  | raised {e : HostResult} (hi : i ≠ .close) (he : e.isValidation = true) : Ended i s (s.raiseError e)
  | closedBefore (hi : i = .close) (hs : s.session = .closed) : Ended i s s.returnOk
  | ran {r : Traffic} (hi : i ≠ .close) (hr : r.RanFrom s) : Ended i s r.report
  | released (hi : i = .close) (hs : s.session = .opened) : Ended i s (closeTraffic s).report

theorem execInit_ended {rows columns : Int} {s t : State} (h : execInit rows columns s = .next t) :
    Ended (.init rows columns) s t := by
  obtain ⟨-, rfl⟩ := execInit_next h
  refine .ran nofun ?_
  obtain ⟨ev, htr, hev⟩ := initTraffic_ranFrom (s.construct rows.toNat columns.toNat)
  exact ⟨ev, by rw [htr, construct_trace], hev⟩

theorem execClose_ended {s t : State} (h : execClose s = .next t) : Ended .close s t := by
  obtain ⟨hs, rfl⟩ | ⟨hs, rfl⟩ := execClose_next h
  · exact .closedBefore rfl hs
  · exact .released rfl hs

theorem exec_transmission_ended {i : Instr} (hi : isTransmission i = true) {s t : State} (h : exec i s = .next t) :
    Ended i s t := by
  have hc : i ≠ .close := by
    rintro rfl
    cases hi
  have hlaw := planOf_lawful (s.withDs (newDs s.ds i)) hi
  rw [exec_transmission hi] at h
  obtain ⟨acts, -, rfl⟩ | ⟨e, hp, rfl⟩ := runPlan_next (whenOpen_next h).2
  · exact .ran hc (perform_ranFrom acts (s.withDs (newDs s.ds i)))
  · rw [hp] at hlaw
    rw [newDs_of_raise hp]
    exact .raised hc hlaw

theorem exec_ended {i : Instr} (hi : isEncoderCall i = false) {s t : State} (h : exec i s = .next t) : Ended i s t := by
  obtain ⟨rows, columns, rfl⟩ | rfl | he | ht := instr_class i
  · exact execInit_ended h
  · exact execClose_ended h
  · cases hi.symm.trans he
  · exact exec_transmission_ended ht h

end Sys2Proof.Machine
end

section
/-! PROOFS. The errors of an operation (60_exceptions.md R186 to R190): a validation error changes nothing but the result, a
TransportError ends the operation at the failed write, and only CLOSE releases the sink (R193, R215). -/

namespace Sys2Proof.Machine

theorem report_not_validation {r : Traffic} {e : HostResult} (h : r.report.result = some e) :
    e.isValidation = false := by
  rw [report_result] at h
  obtain rfl := Option.some.inj h
  split <;> rfl

theorem failed_of_report {r : Traffic} (h : r.report.result = some .transportError) : r.ok = false := by
  rw [report_result] at h
  cases hok : r.ok
  · rfl
  · simp [hok] at h

/-- Settles O41: of the ways an operation ends, only the raise gives a validation error. -/
theorem validationErrorsHaveNoSideEffect : Obligations.ValidationErrorsHaveNoSideEffect := by
  intro i s t e hi h ht he
  cases exec_ended hi h with
  | raised _ _ =>
    obtain rfl := Option.some.inj ht
    rfl
  | closedBefore _ _ =>
    obtain rfl := Option.some.inj ht
    cases he
  | ran _ _ => cases (report_not_validation ht).symm.trans he
  | released _ _ => cases (report_not_validation ht).symm.trans he

/-- Settles O42: of the ways an operation ends, only failed traffic gives a TransportError, and it ends with the failed write;
that this sets XFAULT is O43. -/
theorem transportErrorEndsAtTheFailedWrite : Obligations.TransportErrorEndsAtTheFailedWrite := by
  intro i s t hi h ht
  have xfault {ev after : List Event} {b : Byte} (htr : t.trace = s.trace ++ ev ++ .write b false :: after) : t.xfault = true :=
    (xfaultRecordsFailuresAndIsReadByNothing.1 i s t (ev ++ .write b false :: after) h
      (htr.trans (List.append_assoc ..))).2 (.inr ⟨b, by simp⟩)
  cases exec_ended hi h with
  | raised _ he =>
    obtain rfl := Option.some.inj ht
    cases he
  | closedBefore _ _ => cases ht
  | ran hc hr =>
    obtain ⟨ev, htr, hev⟩ := hr
    obtain ⟨before, b, rfl, hbefore⟩ := hev.ends_at_failure (failed_of_report ht)
    rw [if_neg hc]
    have htrace := (report_trace _).trans (htr.trans (List.append_assoc ..).symm)
    exact ⟨xfault htrace, ⟨before, b, htrace, hbefore⟩, fun hi hc => exec_session hi hc h⟩
  | released hc _ =>
    obtain ⟨ev, htr, hev⟩ := closeTraffic_trace s
    obtain ⟨before, b, rfl, hbefore⟩ := hev.ends_at_failure (failed_of_report ht)
    rw [if_pos hc]
    have htrace := (report_trace _).trans (htr.trans (by simp : _ = s.trace ++ before ++ [.write b false, .release]))
    exact ⟨xfault htrace, ⟨before, b, htrace, hbefore⟩, fun _ hne => absurd hc hne⟩

theorem Traffic.RanFrom.releases {s : State} {r : Traffic} (h : r.RanFrom s) : releases r.state.trace = releases s.trace := by
  obtain ⟨ev, htr, hev⟩ := h
  rw [htr, releases_append, hev.releases, Nat.add_zero]

/-- Settles O48: traffic releases nothing, and of the ways an operation ends only one has a release after its traffic. -/
theorem onlyCloseReleasesTheSink : Obligations.OnlyCloseReleasesTheSink := by
  intro i s t h
  cases hi : isEncoderCall i with
  | true =>
    have hc : i ≠ .close := by
      rintro rfl
      cases hi
    rw [exec_encoderCall hi] at h
    obtain ⟨b, rfl⟩ := partialEncoder_next h
    simp [hc]
  | false =>
    cases exec_ended hi h with
    | raised hc _ => simp [hc]
    | closedBefore _ hs => simp [hs]
    | ran hc hr => simp [report_trace, hr.releases, hc]
    | released hc hs =>
      obtain ⟨ev, htr, hev⟩ := closeTraffic_trace s
      simp [report_trace, htr, releases_append, hev.releases, hc, hs, releases]

end Sys2Proof.Machine
end

section
/-! PROOFS. What SESSION allows (60_exceptions.md R196; D15): an operation refused, and an operation that completes. -/

namespace Sys2Proof.Machine

theorem not_stalls_of_replies {answers : List SinkAnswer} (h : SinkAnswer.silent ∉ answers) (n : Nat) :
    stallsWithin n answers = false := by
  induction answers generalizing n with
  | nil => cases n <;> rfl
  | cons a rest ih =>
    obtain ⟨ha, hrest⟩ := not_or.1 (List.mem_cons.not.1 h)
    cases n with
    | zero => rfl
    | succ n =>
      cases a with
      | ok => exact ih hrest n
      | fail => rfl
      | silent => exact absurd rfl ha

/-- An operation ends where the sink answers (R231). -/
theorem unlessStalled_of_replies {s : State} (h : SinkReplies s) (n : Nat) (t : State) : unlessStalled s n t = .next t := by
  rw [unlessStalled, not_stalls_of_replies h]
  rfl

theorem whenOpen_not_opened {s : State} (h : s.session ≠ .opened) (o : Host.Outcome State Fault Refusal) :
    whenOpen s o = .refused .sessionNotOpen := by
  unfold whenOpen
  split
  · exact absurd ‹_› h
  · rfl
  · rfl

theorem execClose_unbuilt {s : State} (h : s.session = .unbuilt) : execClose s = .refused .sessionNotOpen := by
  simp [execClose, h]

theorem execClose_closed {s : State} (h : s.session = .closed) : execClose s = .next s.returnOk := by
  simp [execClose, h]

/-- CLOSE closes an open session whatever the sink answers (R215, D14). -/
theorem execClose_completes {s : State} (h : s.session = .opened) (hs : SinkReplies s) :
    ∃ t, execClose s = .next t ∧ t.session = .closed := by
  refine ⟨(closeTraffic s).report, ?_, by simp [closeTraffic]⟩
  simp only [execClose, h]
  exact unlessStalled_of_replies hs _ _

theorem execInit_completes {rows columns : Int} (hg : geometryOk rows columns = true) {s : State} (hs : SinkReplies s) :
    ∃ t, execInit rows columns s = .next t ∧ t.session = .opened := by
  refine ⟨(initTraffic (s.construct rows.toNat columns.toNat)).report, ?_, by simp [initTraffic_session]⟩
  rw [execInit, if_pos hg]
  exact unlessStalled_of_replies hs _ _

theorem runPlan_completes {s : State} (hs : SinkReplies s) {plan : Plan} (hp : plan ≠ .outsideEncoder) :
    ∃ t, runPlan s plan = .next t := by
  cases plan with
  | go acts => exact ⟨_, unlessStalled_of_replies hs _ _⟩
  | raise e => exact ⟨_, rfl⟩
  | outsideEncoder => exact absurd rfl hp

theorem exec_transmission_completes {i : Instr} (hi : isTransmission i = true) {s : State} (hu : Usable s)
    (hs : SinkReplies s) : ∃ t, exec i s = .next t := by
  rw [exec_transmission hi, whenOpen_opened _ hu.opened]
  refine runPlan_completes (s := s.withDs (newDs s.ds i)) hs fun hp => ?_
  have hlaw := planOf_lawful (s.withDs (newDs s.ds i)) hi
  rw [hp] at hlaw
  exact hlaw ⟨hu.params, hu.opened, hu.geometry⟩

/-- Settles O39: a plan made in a usable session can be carried out, and only INIT and CLOSE write SESSION. -/
theorem sessionAllowsWhatTheTableSays : Obligations.SessionAllowsWhatTheTableSays := by
  refine ⟨fun s i hs hi => ?_, fun _ => execClose_unbuilt, fun _ => execClose_closed, fun s i hu hs hi => ?_,
    fun _ => execClose_completes, fun _ _ _ => execInit_completes (s := _)⟩
  · rw [exec_transmission (isTransmission_of_ordinary hi)]
    exact whenOpen_not_opened hs _
  · obtain ⟨t, ht⟩ := exec_transmission_completes (isTransmission_of_ordinary hi) hu hs
    refine ⟨t, ht, (exec_session ?_ ?_ ht).trans hu.opened⟩
    · rintro _ _ rfl
      cases hi
    · rintro rfl
      cases hi

end Sys2Proof.Machine
end

section
/-! PROOFS. A SEND cut off by the sink (70_reset_and_hazards.md R224, R231; U12; log 6): the strobes made before a failed
write, and the fault where the sink never answers. -/

namespace Sys2Proof.Machine

/-! ## The strobes of a SEND cut short -/

/-- The writes answered Ok before a SEND's failed one are the first of its six bus bytes. -/
theorem okBytes_cutTrace_failedSend (p : Params) (v : Byte) (rs bl : Bool) {n : Nat} (hn : n ≤ 5) :
    okBytes (cutTrace (sendActs p v rs bl) (List.replicate n true ++ [false])) = (sendBytes p v rs bl).take n := by
  interval_cases n <;> rfl

section
variable {p : Params} (hp : Masks p) (rs bl : Bool)
include hp

/-- A nibble whose enable line is still high has made no strobe yet. -/
theorem strobesOf_unfinished (data : Byte) :
    strobesOf p [idleByte p data rs bl, idleByte p data rs bl ||| p.enMask] = [] :=
  strobesOf_cons_low (idleByte_en hp ..) _

/-- The third byte makes the first strobe and the sixth the second (R90), so of the first five bytes at most one is made. -/
theorem strobesOf_take_sendBytes (v : Byte) {n : Nat} (hn : n ≤ 5) :
    (strobesOf p ((sendBytes p v rs bl).take n)).length = if 3 ≤ n then 1 else 0 := by
  rw [sendBytes_eq]
  match n, hn with
  | 0, _ => rfl
  | 1, _ => rfl
  | 2, _ => exact congrArg List.length (strobesOf_unfinished hp rs bl v)
  | 3, _ => exact congrArg List.length (strobesOf_nibble hp v rs bl [])
  | 4, _ => exact congrArg List.length (strobesOf_nibble hp v rs bl [idleByte p (v <<< 4) rs bl])
  | 5, _ =>
    have hfirst := strobesOf_nibble hp v rs bl [idleByte p (v <<< 4) rs bl, idleByte p (v <<< 4) rs bl ||| p.enMask]
    rw [strobesOf_unfinished hp] at hfirst
    exact congrArg List.length hfirst

end

/-- Settles O12: before the `k`-th write, which fails, the first `k - 1` bytes of the SEND were put on the bus. -/
theorem failedSendLosesNibblePhase : Obligations.FailedSendLosesNibblePhase := by
  intro p v rs bl k hw hk hk6
  rw [okBytes_cutTrace_failedSend p v rs bl (by omega), strobesOf_take_sendBytes (masks_of_wf hw) rs bl v (by omega)]
  exact if_congr (by omega) rfl rfl

/-! ## The sink that never answers -/

/-- Ok answers only bring the next answer nearer. -/
theorem stallsWithin_replicate_append (k n : Nat) (answers : List SinkAnswer) :
    stallsWithin (k + n) (List.replicate k .ok ++ answers) = stallsWithin n answers := by
  induction k with
  | zero => rw [Nat.zero_add, List.replicate_zero, List.nil_append]
  | succ k ih => rwa [Nat.succ_add]

theorem transmit_of_silent {s : State} {acts : List Act} {k : Nat} {rest : List SinkAnswer} (hk : k < countWrites acts)
    (hs : s.sinkAnswers = List.replicate k .ok ++ .silent :: rest) : transmit s acts = .fault .sinkNeverAnswers := by
  obtain ⟨m, hm⟩ := Nat.exists_eq_add_of_lt hk
  have hstall : stallsWithin (countWrites acts) s.sinkAnswers = true := by
    rw [hs, hm, Nat.add_assoc, stallsWithin_replicate_append]
    rfl
  rw [transmit, unlessStalled, if_pos hstall]

section
variable {s : State} (hs : SinkReplies s)
include hs

theorem unlessStalled_ne_fault (n : Nat) (t : State) (f : Fault) : unlessStalled s n t ≠ .fault f := by
  rw [unlessStalled_of_replies hs]
  exact nofun

theorem runPlan_ne_fault (plan : Plan) (f : Fault) : runPlan s plan ≠ .fault f := by
  cases plan with
  | go acts => exact unlessStalled_ne_fault hs _ _ f
  | raise e => exact nofun
  | outsideEncoder => exact nofun

theorem execInit_ne_fault (rows columns : Int) (f : Fault) : execInit rows columns s ≠ .fault f := by
  unfold execInit
  split
  · exact unlessStalled_ne_fault hs _ _ f
  · exact nofun

theorem execClose_ne_fault (f : Fault) : execClose s ≠ .fault f := by
  unfold execClose
  split
  · exact nofun
  · exact unlessStalled_ne_fault hs _ _ f
  · exact nofun

end

theorem whenOpen_ne_fault (s : State) {o : Host.Outcome State Fault Refusal} {f : Fault} (ho : o ≠ .fault f) :
    whenOpen s o ≠ .fault f := by
  unfold whenOpen
  split
  · exact ho
  · exact nofun
  · exact nofun

theorem partialEncoder_ne_fault (s : State) (r : Option Byte) (f : Fault) : partialEncoder s r ≠ .fault f := by
  cases r with
  | none => exact nofun
  | some b => exact nofun

/-- Settles O14: a SEND comes to the silent write after its Ok ones; and the only fault there is asks for a silent answer. -/
theorem onlyASilentSinkHangs : Obligations.OnlyASilentSinkHangs := by
  refine ⟨fun s v rs bl k rest ho hk hs => (exec_send_opened ho v rs bl).trans (transmit_of_silent hk hs),
    fun s i f hs => ?_⟩
  obtain ⟨rows, columns, rfl⟩ | rfl | he | ht := instr_class i
  · exact execInit_ne_fault hs rows columns f
  · exact execClose_ne_fault hs f
  · rw [exec_encoderCall he]
    exact partialEncoder_ne_fault s _ f
  · rw [exec_transmission ht]
    exact whenOpen_ne_fault s (runPlan_ne_fault (s := s.withDs (newDs s.ds i)) hs _ f)

end Sys2Proof.Machine
end

section
/-! PROOFS. Traffic does not read DS: what is sent is decided before the first event. So the text operations, whose plan reads
no flag but the backlight, do not depend on the entry mode (70_reset_and_hazards.md R229). -/

namespace Sys2Proof.Machine

/-- The same traffic with another DS. -/
def Traffic.withDs (t : Traffic) (ds : DisplayState) : Traffic := { t with state := t.state.withDs ds }

theorem perform_withDs (acts : List Act) (s : State) (ds : DisplayState) :
    perform acts (s.withDs ds) = (perform acts s).withDs ds := by
  induction acts generalizing s with
  | nil => rfl
  | cons x rest ih =>
    cases x with
    | wait ns => exact ih (s.emit (.wait ns))
    | write b =>
      have hn : (s.withDs ds).nextWriteOk = s.nextWriteOk := rfl
      simp only [perform, hn]
      split
      · exact ih (s.writeOk b)
      · rfl

theorem report_withDs (t : Traffic) (ds : DisplayState) : (t.withDs ds).report = t.report.withDs ds := by
  obtain ⟨ok, u⟩ := t
  cases ok <;> rfl

theorem transmit_withDs {s t : State} {acts : List Act} (h : transmit s acts = .next t) (ds : DisplayState) :
    transmit (s.withDs ds) acts = .next (t.withDs ds) := by
  have hsink : (s.withDs ds).sinkAnswers = s.sinkAnswers := rfl
  unfold transmit unlessStalled at h ⊢
  rw [hsink, perform_withDs, report_withDs]
  split at h
  · cases h
  · cases h
    exact if_neg ‹_›

theorem runPlan_withDs {s t : State} {plan : Plan} (h : runPlan s plan = .next t) (ds : DisplayState) :
    runPlan (s.withDs ds) plan = .next (t.withDs ds) := by
  cases plan with
  | go acts => exact transmit_withDs h ds
  | raise e =>
    cases h
    rfl
  | outsideEncoder => cases h

/-- The three text operations of R150, R151, R167. -/
def IsTextOperation (i : Instr) : Prop :=
  (∃ text row column, i = .displayTextAt text row column) ∨ (∃ text row, i = .displayTextRow text row) ∨
    ∃ text, i = .layoutText text

section
variable {i : Instr} (hi : IsTextOperation i)
include hi

/-- A text operation carries out its plan in the state it finds: it writes no flag (R28). -/
theorem IsTextOperation.exec_eq (s : State) : exec i s = whenOpen s (runPlan s (planOf s i)) := by
  obtain ⟨_, _, _, rfl⟩ | ⟨_, _, rfl⟩ | ⟨_, rfl⟩ := hi <;> rfl

theorem IsTextOperation.planOf_congr {s t : State} (h : SameTextInputs s t) : planOf t i = planOf s i := by
  obtain ⟨text, row, column, rfl⟩ | ⟨text, row, rfl⟩ | ⟨text, rfl⟩ := hi
  · exact planTextAt_congr h text row column
  · exact planTextAt_congr h text row 0
  · exact planLayoutText_congr h text

end

/-- Settles O34: the plan is the same, and carrying it out does not read DS. -/
theorem textOperationsIgnoreTheEntryMode : Obligations.TextOperationsIgnoreTheEntryMode := by
  intro i s t ds (hi : IsTextOperation i) hbl h
  rw [hi.exec_eq] at h
  obtain ⟨ho, hr⟩ := whenOpen_next h
  have hinputs : SameTextInputs s (s.withDs ds) := ⟨rfl, rfl, rfl, hbl⟩
  calc exec i (s.withDs ds)
    _ = whenOpen (s.withDs ds) (runPlan (s.withDs ds) (planOf (s.withDs ds) i)) := hi.exec_eq _
    _ = runPlan (s.withDs ds) (planOf (s.withDs ds) i) := whenOpen_opened _ ho
    _ = runPlan (s.withDs ds) (planOf s i) := by rw [hi.planOf_congr hinputs]
    _ = .next (t.withDs ds) := runPlan_withDs hr ds

end Sys2Proof.Machine
end

section
/-! PROOFS. INIT (70_reset_and_hazards.md R210 to R212, R217): its domain, and its traffic as one event list over which DS is
assigned in three parts. -/

namespace Sys2Proof.Machine

/-! ## The domain -/

theorem geometryOk_iff {rows columns : Int} :
    geometryOk rows columns = true ↔ 1 ≤ rows ∧ rows ≤ 4 ∧ 1 ≤ columns ∧ columns ≤ maxCol rows.toNat := by
  simp only [geometryOk, Bool.and_eq_true, decide_eq_true_eq, and_assoc]

/-- The bound on the columns, written out for each number of rows (R211). -/
theorem not_geometryOk_iff {rows columns : Int} :
    ¬ geometryOk rows columns = true ↔ rows < 1 ∨ 4 < rows ∨ columns < 1 ∨ (rows = 1 ∧ 127 < columns) ∨
      (rows = 2 ∧ 63 < columns) ∨ (rows = 3 ∧ 63 < columns) ∨ (rows = 4 ∧ 43 < columns) := by
  rw [geometryOk_iff]
  by_cases hrows : 1 ≤ rows ∧ rows ≤ 4
  · obtain rfl | rfl | rfl | rfl : rows = 1 ∨ rows = 2 ∨ rows = 3 ∨ rows = 4 := by omega
    all_goals
      simp only [Int.reduceToNat, maxCol, true_and]
      omega
  · omega

/-- The geometry INIT is given is the one it assigns. -/
theorem construct_geometry {rows columns : Int} (hg : geometryOk rows columns = true) (s : State) :
    ((s.construct rows.toNat columns.toNat).rows : Int) = rows ∧
      ((s.construct rows.toNat columns.toNat).columns : Int) = columns := by
  obtain ⟨hrows, -, hcolumns, -⟩ := geometryOk_iff.1 hg
  exact ⟨Int.toNat_of_nonneg (by omega), Int.toNat_of_nonneg (by omega)⟩

theorem unlessStalled_ne_refused (s : State) (n : Nat) (t : State) (r : Refusal) : unlessStalled s n t ≠ .refused r := by
  unfold unlessStalled
  split
  · exact nofun
  · exact nofun

/-- Settles O37: nothing but the geometry decides the refusal. -/
theorem initRefusesAnIllegalGeometry : Obligations.InitRefusesAnIllegalGeometry := by
  intro s rows columns
  rw [← not_geometryOk_iff]
  by_cases hg : geometryOk rows columns = true
  · have hne : exec (.init rows columns) s ≠ .refused .badGeometry := by
      rw [show exec (.init rows columns) s = _ from if_pos hg]
      exact unlessStalled_ne_refused _ _ _ _
    exact iff_of_false (not_not.2 hg) hne
  · exact iff_of_true hg (if_neg hg)

/-! ## The event list of INIT, in three parts -/

/-- INIT's events while DS is as after construction: the preamble and the function set (R211). -/
def initHead (p : Params) : List Act :=
  sendAll p false (p.initPreamble.map (fun v => (false, v))) ++ sendActs p (functionSetByte p false true false) false false

/-- INIT's events once `displayOn` is assigned: display control, entry mode and the clear (R211). -/
def initMiddle (p : Params) : List Act :=
  sendAll p false
      [(false, displayControlByte p p.initDisplayOn false false), (false, entryModeByte p true false), (false, 0x01)] ++
    [.wait p.tLong]

/-- The last part is the backlight write, once `backlightOn` is assigned. -/
theorem initEvents_eq (p : Params) : initEvents p = (initHead p ++ initMiddle p) ++ blwriteActs p true := by
  simp [initEvents, initHead, initMiddle, sendAll, blwriteActs, blwriteByte, flagBit]

theorem countWrites_initHead (p : Params) : countWrites (initHead p) = 6 * (p.initPreamble.length + 1) := by
  rw [initHead, countWrites_append, countWrites_sendAll, countWrites_send, List.length_map, Nat.mul_succ]

theorem countWrites_initHead_middle (p : Params) :
    countWrites (initHead p ++ initMiddle p) = 6 * (p.initPreamble.length + 4) := by
  have hmiddle : countWrites (initMiddle p) = 18 := rfl
  rw [countWrites_append, countWrites_initHead, hmiddle]
  omega

theorem countWrites_initEvents (p : Params) : countWrites (initEvents p) = 6 * (p.initPreamble.length + 4) + 1 := by
  rw [initEvents_eq, countWrites_append, countWrites_initHead_middle]
  rfl

/-- DS in the second part of INIT (R211). -/
def initDsDisplay (p : Params) : DisplayState := { DisplayState.initial with displayOn := p.initDisplayOn }

/-- DS in the last part of INIT (R211). -/
def initDsBacklight (p : Params) : DisplayState := { initDsDisplay p with backlightOn := true }

/-- DS as INIT has assigned it by the time its traffic from `s` ends: by the parts answered Ok (R217, D23). -/
def initDs (s : State) : DisplayState :=
  if (perform (initHead s.cfg) s).ok then
    if (perform (initHead s.cfg ++ initMiddle s.cfg) s).ok then initDsBacklight s.cfg else initDsDisplay s.cfg
  else DisplayState.initial

theorem withDs_self {s : State} {ds : DisplayState} (h : s.ds = ds) : s.withDs ds = s := by
  subst h
  rfl

theorem commandAll_eq_sendAll (s : State) (bytes : List Byte) :
    s.commandAll bytes = sendAll s.cfg s.ds.backlightOn (bytes.map (fun v => (false, v))) := by
  induction bytes with
  | nil => rfl
  | cons v rest ih =>
    rw [State.commandAll, ih]
    rfl

section
variable {s : State} (hds : s.ds = DisplayState.initial)
include hds

theorem initFunctionSet_eq : initFunctionSet s = perform (initHead s.cfg) s := by
  rw [initFunctionSet, commandAll_eq_sendAll, State.command, hds]
  rfl

theorem initDisplay_eq : initDisplay s = (perform (initMiddle s.cfg) s).withDs (initDsDisplay s.cfg) := by
  rw [← perform_withDs]
  simp only [initDisplay, State.setDisplayOn, hds]
  rfl

end

theorem initBacklight_eq {s : State} {p : Params} (hcfg : s.cfg = p) :
    initBacklight (s.withDs (initDsDisplay p)) = (perform (blwriteActs p true) s).withDs (initDsBacklight p) := by
  rw [← perform_withDs, ← hcfg]
  rfl

/-- INIT's traffic is that of its one event list, with DS as assigned so far and, at the very end, the panel of R212. -/
theorem initTraffic_eq {s : State} (hds : s.ds = DisplayState.initial) :
    initTraffic s = ((perform (initEvents s.cfg) s).withDs (initDs s)).andThen initPanel := by
  have hu := perform_untouched (initHead s.cfg) s
  have hhead : perform (initHead s.cfg ++ initMiddle s.cfg) s = _ := perform_append ..
  rw [initTraffic, initFunctionSet_eq hds, initEvents_eq, perform_append, initDs, hhead]
  generalize perform (initHead s.cfg) s = head at hu ⊢
  obtain ⟨ok, u⟩ := head
  obtain ⟨hcfg, hds'⟩ : u.cfg = s.cfg ∧ u.ds = DisplayState.initial := ⟨hu.cfg, hu.ds.trans hds⟩
  cases ok with
  | false => simp [Traffic.withDs, withDs_self hds']
  | true =>
    have hu' := perform_untouched (initMiddle s.cfg) u
    rw [andThen_ok, andThen_ok, initDisplay_eq hds', hcfg]
    generalize perform (initMiddle s.cfg) u = middle at hu' ⊢
    obtain ⟨ok, v⟩ := middle
    cases ok with
    | false => simp [Traffic.withDs]
    | true =>
      have hlast := initBacklight_eq (s := v) (hu'.cfg.trans hcfg)
      simp [Traffic.withDs, hlast]

/-- INIT with a legal geometry, on a sink that leaves none of its writes without an answer. -/
theorem exec_init {rows columns : Int} (hg : geometryOk rows columns = true) {s : State}
    (hs : stallsWithin (initWrites s.cfg) s.sinkAnswers = false) :
    exec (.init rows columns) s = .next (initTraffic (s.construct rows.toNat columns.toNat)).report := by
  rw [show exec (.init rows columns) s = _ from if_pos hg, unlessStalled, hs]
  rfl

/-! ## INIT answered Ok -/

/-- An INIT answered Ok has sent its whole event list; DS is as assigned last, the panel as R212 says. -/
theorem exec_init_ok {rows columns : Int} (hg : geometryOk rows columns = true) {s : State}
    (hk : OkFor s (initWrites s.cfg)) :
    exec (.init rows columns) s =
      .next (initPanel ((applyOk (initEvents s.cfg) (s.construct rows.toNat columns.toNat)).withDs
        (initDsBacklight s.cfg))).state.returnOk := by
  have hcfg := construct_cfg s rows.toNat columns.toNat
  have hk' : OkFor (s.construct rows.toNat columns.toNat) (initWrites s.cfg) := by simpa [OkFor] using hk
  rw [exec_init hg (not_stalls_of_OkFor le_rfl hk), initTraffic_eq (construct_ds ..), hcfg]
  generalize s.construct rows.toNat columns.toNat = u at hcfg hk'
  have hhead : (perform (initHead s.cfg) u).ok = true :=
    perform_ok_of_OkFor (by rw [countWrites_initHead, initWrites]; omega) hk'
  have hmiddle : (perform (initHead s.cfg ++ initMiddle s.cfg) u).ok = true :=
    perform_ok_of_OkFor (by rw [countWrites_initHead_middle, initWrites]; omega) hk'
  have hall : perform (initEvents s.cfg) u = _ :=
    perform_ok (perform_ok_of_OkFor (by rw [countWrites_initEvents, initWrites]) hk')
  have hds : initDs u = initDsBacklight s.cfg := by
    rw [initDs, hcfg, if_pos hhead, if_pos hmiddle]
  rw [hall, hds]
  rfl

/-- The last byte INIT puts on the outputs is that of the backlight write (R91). -/
theorem lastByte_initEvents (p : Params) (old : Byte) : lastByte old (initEvents p) = p.blMask := by
  rw [initEvents_eq, lastByte_append]
  rfl

theorem applyOk_outputs (acts : List Act) (s : State) : (applyOk acts s).outputs = lastByte s.outputs acts := by
  induction acts generalizing s with
  | nil => rfl
  | cons x rest ih => cases x <;> exact ih _

/-- Settles O35: the whole event list was appended, and traffic touches nothing else of the block. -/
theorem initEstablishesTheInitialState : Obligations.InitEstablishesTheInitialState := by
  intro s rows columns hg hk
  obtain ⟨hrows, hcolumns⟩ := construct_geometry hg s
  have hu := applyOk_untouched (initEvents s.cfg) (s.construct rows.toNat columns.toNat)
  have htrace := applyOk_trace (initEvents s.cfg) (s.construct rows.toNat columns.toNat)
  rw [countWrites_initEvents, construct_trace] at htrace
  exact ⟨_, exec_init_ok hg hk, rfl, hu.session, applyOk_xfault .., (congrArg Nat.cast hu.rows).trans hrows,
    (congrArg Nat.cast hu.columns).trans hcolumns, rfl, htrace, rfl, rfl, rfl, rfl, rfl,
    (applyOk_outputs ..).trans (lastByte_initEvents ..), hu.cfg.trans (construct_cfg ..),
    hu.encoded.trans (construct_encoded ..), hu.requests.trans (construct_requests ..),
    hu.innerCall.trans (construct_innerCall ..)⟩

/-- Settles O40: the 37 events of that INIT, run on the unbuilt state. -/
theorem resetIsWhatInitLeaves : Obligations.ResetIsWhatInitLeaves :=
  ⟨_, exec_init_ok (by decide) ⟨[], rfl⟩, rfl⟩

/-! ## INIT with a write that fails -/

/-- An event list that comes to the sink's first Fail ends there. -/
theorem perform_failing {acts : List Act} {s : State} {k : Nat} {rest : List SinkAnswer} (hk : k < countWrites acts)
    (hs : s.sinkAnswers = List.replicate k .ok ++ .fail :: rest) :
    (perform acts s).ok = false ∧
      (perform acts s).state.trace = s.trace ++ cutTrace acts (List.replicate k true ++ [false]) := by
  induction acts generalizing s k with
  | nil => exact absurd hk (Nat.not_lt_zero k)
  | cons x tl ih =>
    cases x with
    | wait ns =>
      obtain ⟨hok, htr⟩ := ih (s := s.emit (.wait ns)) hk hs
      exact ⟨hok, by simpa [perform, cutTrace] using htr⟩
    | write b =>
      cases k with
      | zero =>
        have hw : s.nextWriteOk = false := by simp [State.nextWriteOk, hs]
        simp [perform, hw, cutTrace]
      | succ k =>
        have hw : s.nextWriteOk = true := by simp [State.nextWriteOk, hs, List.replicate_succ]
        obtain ⟨hok, htr⟩ := ih (s := s.writeOk b) (Nat.lt_of_succ_lt_succ hk) (by simp [hs, List.replicate_succ])
        rw [perform, if_pos hw]
        exact ⟨hok, by simpa [cutTrace, List.replicate_succ] using htr⟩

theorem perform_ok_iff_of_fail {acts : List Act} {s : State} {k : Nat} {rest : List SinkAnswer}
    (hs : s.sinkAnswers = List.replicate k .ok ++ .fail :: rest) : (perform acts s).ok = true ↔ countWrites acts ≤ k := by
  refine ⟨fun hok => Nat.le_of_not_lt fun hk => ?_, fun hk => perform_ok_of_OkFor hk ⟨_, hs⟩⟩
  rw [(perform_failing hk hs).1] at hok
  cases hok

theorem not_stalls_of_fail {k n : Nat} (hk : k < n) (rest : List SinkAnswer) :
    stallsWithin n (List.replicate k .ok ++ .fail :: rest) = false := by
  obtain ⟨m, rfl⟩ := Nat.exists_eq_add_of_lt hk
  rw [Nat.add_assoc, stallsWithin_replicate_append]
  rfl

/-- DS where write number `k` failed: by the part of INIT it is a write of (R217, D23). -/
theorem initDs_of_fail {s : State} {k : Nat} {rest : List SinkAnswer}
    (hs : s.sinkAnswers = List.replicate k .ok ++ .fail :: rest) :
    initDs s = if k < 6 * (s.cfg.initPreamble.length + 1) then DisplayState.initial
      else if k < 6 * (s.cfg.initPreamble.length + 4) then initDsDisplay s.cfg else initDsBacklight s.cfg := by
  simp only [initDs, perform_ok_iff_of_fail hs, countWrites_initHead, countWrites_initHead_middle, ← Nat.not_lt, ite_not]

/-- An INIT whose write number `k` failed ends there, with DS as assigned so far. -/
theorem exec_init_failed {rows columns : Int} (hg : geometryOk rows columns = true) {s : State} {k : Nat}
    {rest : List SinkAnswer} (hk : k < initWrites s.cfg) (hs : s.sinkAnswers = List.replicate k .ok ++ .fail :: rest) :
    exec (.init rows columns) s =
      .next (((perform (initEvents s.cfg) (s.construct rows.toNat columns.toNat)).state.withDs
        (initDs (s.construct rows.toNat columns.toNat))).raiseError .transportError) := by
  have hs' := (construct_sinkAnswers s rows.toNat columns.toNat).trans hs
  have hstall : stallsWithin (initWrites s.cfg) s.sinkAnswers = false := hs ▸ not_stalls_of_fail hk rest
  obtain ⟨hfail, -⟩ := perform_failing (acts := initEvents s.cfg) (by rwa [countWrites_initEvents]) hs'
  rw [exec_init hg hstall, initTraffic_eq (construct_ds ..), construct_cfg]
  simp [Traffic.andThen, Traffic.withDs, Traffic.report, hfail]

/-- Settles O36: the event list is cut at the failed write, and traffic touches nothing else of the block. -/
theorem failedInitKeepsWhatItAssigned : Obligations.FailedInitKeepsWhatItAssigned := by
  intro s rows columns k rest hg n hk hs
  have hs' := (construct_sinkAnswers s rows.toNat columns.toNat).trans hs
  obtain ⟨hrows, hcolumns⟩ := construct_geometry hg s
  have hu := perform_untouched (initEvents s.cfg) (s.construct rows.toNat columns.toNat)
  have hx := perform_xfault (initEvents s.cfg) (s.construct rows.toNat columns.toNat)
  obtain ⟨hfail, htrace⟩ := perform_failing (acts := initEvents s.cfg) (by rwa [countWrites_initEvents]) hs'
  have hds := initDs_of_fail hs'
  rw [construct_cfg] at hds
  rw [construct_trace] at htrace
  rw [hfail, Bool.not_false, Bool.or_true] at hx
  exact ⟨_, exec_init_failed hg hk hs, rfl, hu.session, hx, (congrArg Nat.cast hu.rows).trans hrows,
    (congrArg Nat.cast hu.columns).trans hcolumns, hds, htrace⟩

end Sys2Proof.Machine
end

section
/-! PROOFS. CLOSE (70_reset_and_hazards.md R215; 60_exceptions.md R193): the display turned off, then the sink released and
the session closed on both answers. -/

namespace Sys2Proof.Machine

/-- Releasing the sink and closing the session changes nothing of what is reported (R215, D14). -/
theorem report_closeSession (r : Traffic) :
    Traffic.report { r with state := r.state.closeSession } = r.report.closeSession := by
  obtain ⟨ok, u⟩ := r
  cases ok <;> rfl

/-- Settles O38: a transmission of the display-off command, whatever the answers, and then the end of the session. -/
theorem closeReleasesTheSinkOnEveryPath : Obligations.CloseReleasesTheSinkOnEveryPath := by
  refine ⟨fun s answers rest ho hn ha => ?_, fun s => execClose_closed⟩
  have hstall : stallsWithin 6 s.sinkAnswers = false := by
    rw [show s.sinkAnswers = _ from ha, ← hn]
    exact stallsWithin_answers answers rest
  have hexec : exec .close s = .next (closeTraffic s).report := by
    have hopen : exec .close s = unlessStalled s 6 (closeTraffic s).report := by
      simp only [exec, execClose, ho]
      rfl
    rw [hopen, unlessStalled, hstall]
    rfl
  have ht := report_answers (s := s.setDisplayOn false)
    (acts := (s.setDisplayOn false).command (s.setDisplayOn false).dc) hn ha
  exact ⟨_, hexec.trans (congrArg _ (report_closeSession _)), congrArg (· ++ [Event.release]) ht.trace, rfl, ht.ds,
    ht.result, ht.xfault, ht.cfg, ht.rows, ht.columns, ht.encoded, ht.requests, ht.innerCall⟩

end Sys2Proof.Machine
end

section
/-! PROOFS. The parked position, one past a row's end (70_reset_and_hazards.md R227; log 8, log 10). -/

namespace Sys2Proof.Machine

/-- SET_CURSOR_POSITION to a cell of the display or one past a row's end, answered Ok: the block is ready for the next
operation, and the panel's cursor is at the cell's address. -/
theorem exec_setCursorPosition_received {s : State} (hu : Usable s) (hp : InPhase s) {k : Nat} (hk : OkFor s (6 + k))
    {row : Int} {base column : Nat} (hb : RowBase row base) (hr : row < s.rows) (hc : column ≤ s.columns) :
    ∃ t, exec (.setCursorPosition column row) s = .next t ∧ Usable t ∧ InPhase t ∧ OkFor t k ∧
      t.panel.address = .ddram (BitVec.ofNat 7 (base + column)) := by
  have hle := hb.add_le hu.geometry hr
  have hv : commandByte s.cfg (.setDdramAddr (base + column : Nat)) = some (BitVec.ofInt 8 (0x80 + base + column)) := by
    rw [show commandByte s.cfg (.setDdramAddr (base + column : Nat)) = _ from ddramAddressByte_sum _,
      if_pos (ddramOffsetOk_iff.2 (by omega)), Int.natCast_add, Int.add_assoc]
  have hplan := planCursorPosition_cell hu.geometry hb hr (Int.natCast_nonneg column) (by omega)
  obtain ⟨t, he, ht⟩ := transmit_command_received hu hp hk (c := .setDdramAddr (base + column : Nat)) rfl hv (wait := none)
    (List.append_nil _).symm
  refine ⟨t, (exec_opened_of_plan (i := .setCursorPosition column row) rfl hplan hu.opened).trans he, ht.usable,
    ht.inPhase, ht.answers, ?_⟩
  rw [ht.panel, receiveByte_command hu.params hv]
  rfl

/-- Settles O54: the byte is stored at the address the cursor was moved to, which a legal geometry keeps below 0x80. -/
theorem parkedWriteGoesPastTheRow : Obligations.ParkedWriteGoesPastTheRow := by
  intro s code row base hu hp hk hb hr
  have hle := hb.add_le hu.geometry hr
  obtain ⟨t, he, htu, htp, htk, haddr⟩ := exec_setCursorPosition_received hu hp (k := 6) hk hb hr le_rfl
  obtain ⟨u, heu, hres, -, hstore, -⟩ := writeCharacterStoresOneByte t code htu htp htk
  obtain ⟨hread, -⟩ := hstore _ haddr
  refine ⟨t, u, he, heu, hres, (hread _).trans (if_pos ?_)⟩
  rw [BitVec.toNat_ofNat]
  omega

end Sys2Proof.Machine
end
